-- ==== Sys2Proof/Word.lean ====
section
/-! DEFINITION. The word types of the machine (spec 00_scope.md R5, R6): every quantity is an unsigned bit vector of
a fixed width. -/

namespace Sys2Proof

/-- A byte of memory, a general register, a timer (R10, R22, R23, R40). -/
abbrev Byte := BitVec 8

/-- An opcode, `pc`, `i`, a stack entry (R14, R17, R19, R60). -/
abbrev Word := BitVec 16

/-- A 4-bit opcode field: a nibble `n1` to `n4`, a sprite height `n` (R61). -/
abbrev Nibble := BitVec 4

/-- A register index: a 4-bit field names every register and nothing else (R11). Also a key code 0 to 15 (R183). -/
abbrev RegIdx := BitVec 4

/-- The 12-bit immediate `nnn` (R61). -/
abbrev Imm12 := BitVec 12

end Sys2Proof
end

