-- ==== Sys2Proof/Syntax.lean ====
section
/-! DEFINITION. The instruction set: one constructor per row of spec/opcode_table.json, in the table's order (R64). The
field types carry the field widths of R61. -/

namespace Sys2Proof

/-- The 35 instructions of R64. `x` and `y` are register indices, `nn` and `nnn` immediates, `n` a sprite height. -/
inductive Instr where
  /-- 0000 `NOP` (R90). -/
  | nop
  /-- 00E0 `CLS` (R135). -/
  | cls
  /-- 00EE `RET` (R91). -/
  | ret
  /-- 1nnn `JP nnn` (R92). -/
  | jp (nnn : Imm12)
  /-- 2nnn `CALL nnn` (R93). -/
  | call (nnn : Imm12)
  /-- 3xnn `SE Vx, nn` (R94). -/
  | seImm (x : RegIdx) (nn : Byte)
  /-- 4xnn `SNE Vx, nn` (R95). -/
  | sneImm (x : RegIdx) (nn : Byte)
  /-- 5xy0 `SE Vx, Vy` (R96). -/
  | seReg (x y : RegIdx)
  /-- 6xnn `LD Vx, nn` (R101). -/
  | ldImm (x : RegIdx) (nn : Byte)
  /-- 7xnn `ADD Vx, nn` (R102). -/
  | addImm (x : RegIdx) (nn : Byte)
  /-- 8xy0 `LD Vx, Vy` (R103). -/
  | ldReg (x y : RegIdx)
  /-- 8xy1 `OR Vx, Vy` (R104). -/
  | orReg (x y : RegIdx)
  /-- 8xy2 `AND Vx, Vy` (R105). -/
  | andReg (x y : RegIdx)
  /-- 8xy3 `XOR Vx, Vy` (R106). -/
  | xorReg (x y : RegIdx)
  /-- 8xy4 `ADD Vx, Vy` (R107). -/
  | addReg (x y : RegIdx)
  /-- 8xy5 `SUB Vx, Vy` (R108). -/
  | sub (x y : RegIdx)
  /-- 8xy6 `SHR Vx, Vy` (R109); `y` is encoded and ignored (R66). -/
  | shr (x y : RegIdx)
  /-- 8xy7 `SUBN Vx, Vy` (R110). -/
  | subn (x y : RegIdx)
  /-- 8xyE `SHL Vx, Vy` (R111); `y` is encoded and ignored (R66). -/
  | shl (x y : RegIdx)
  /-- 9xy0 `SNE Vx, Vy` (R97). -/
  | sneReg (x y : RegIdx)
  /-- Annn `LD I, nnn` (R120). -/
  | ldI (nnn : Imm12)
  /-- Bnnn `JP V0, nnn` (R98). -/
  | jpV0 (nnn : Imm12)
  /-- Cxnn `RND Vx, nn` (R112). -/
  | rnd (x : RegIdx) (nn : Byte)
  /-- Dxyn `DRW Vx, Vy, n` (R137). -/
  | drw (x y : RegIdx) (n : Nibble)
  /-- Ex9E `SKP Vx` (R150). -/
  | skp (x : RegIdx)
  /-- ExA1 `SKNP Vx` (R151). -/
  | sknp (x : RegIdx)
  /-- Fx07 `LD Vx, DT` (R153). -/
  | ldVxDt (x : RegIdx)
  /-- Fx0A `LD Vx, K` (R152). -/
  | ldVxK (x : RegIdx)
  /-- Fx15 `LD DT, Vx` (R154). -/
  | ldDtVx (x : RegIdx)
  /-- Fx18 `LD ST, Vx` (R155). -/
  | ldStVx (x : RegIdx)
  /-- Fx1E `ADD I, Vx` (R121). -/
  | addI (x : RegIdx)
  /-- Fx29 `LD F, Vx` (R122). -/
  | ldF (x : RegIdx)
  /-- Fx33 `LD B, Vx` (R123). -/
  | ldB (x : RegIdx)
  /-- Fx55 `LD [I], Vx` (R124). -/
  | ldMemVx (x : RegIdx)
  /-- Fx65 `LD Vx, [I]` (R125). -/
  | ldVxMem (x : RegIdx)
deriving DecidableEq, Repr

end Sys2Proof
end

