-- ==== Sys2Proof/WellFormed.lean ====
section
/-! DEFINITION. Well-formedness: the operand numbers of an instruction fit their fields (R61, R63, R70). Every value of
a field is legal (R11, R63, R66), so the field widths are the only checks, and the types of `Instr` already carry them:
no term of `Instr` is ill-formed. The check itself is written on operand NUMBERS, as a program text gives them (R70:
`nn`, `nnn`, `n` "are numbers that must fit the field"), where it does refuse. -/

namespace Sys2Proof

/-- The operand numbers of one instruction; a field the instruction does not have is 0. -/
structure OperandNumbers where
  x : Nat := 0
  y : Nat := 0
  n : Nat := 0
  nn : Nat := 0
  nnn : Nat := 0
deriving DecidableEq, Repr

/-- Every number fits its field: registers and sprite height 4 bits, `nn` 8 bits, `nnn` 12 bits (R61). -/
def OperandNumbers.wellFormed (o : OperandNumbers) : Bool :=
  decide (o.x < 16) && decide (o.y < 16) && decide (o.n < 16) && decide (o.nn < 256) && decide (o.nnn < 4096)

/-- The operand numbers of an instruction (R61, R63: every field is read as an unsigned number). -/
def Instr.operandNumbers : Instr → OperandNumbers
  | .nop | .cls | .ret => {}
  | .jp nnn | .call nnn | .ldI nnn | .jpV0 nnn => { nnn := nnn.toNat }
  | .seImm x nn | .sneImm x nn | .ldImm x nn | .addImm x nn | .rnd x nn => { x := x.toNat, nn := nn.toNat }
  | .seReg x y | .ldReg x y | .orReg x y | .andReg x y | .xorReg x y | .addReg x y | .sub x y | .shr x y
  | .subn x y | .shl x y | .sneReg x y => { x := x.toNat, y := y.toNat }
  | .drw x y n => { x := x.toNat, y := y.toNat, n := n.toNat }
  | .skp x | .sknp x | .ldVxDt x | .ldVxK x | .ldDtVx x | .ldStVx x | .addI x | .ldF x | .ldB x | .ldMemVx x
  | .ldVxMem x => { x := x.toNat }

/-- An instruction is well-formed when its operand numbers fit their fields. -/
def Instr.wellFormed (i : Instr) : Bool := i.operandNumbers.wellFormed

end Sys2Proof
end

