-- ==== Sys2Proof/Decode.lean ====
section
/-! DEFINITION. Decoding and encoding (spec 30_encoding.md). Decoding is a pure function of the 16 opcode bits (R65),
keyed on the four nibbles (R61); every literal digit of a pattern is compared (R65, D26). -/

namespace Sys2Proof

/-- `n1 = op[15:12]` (R61). -/
def Word.n1 (op : Word) : Nibble := op.extractLsb' 12 4
/-- `n2 = op[11:8]`, also the field `x` (R61). -/
def Word.n2 (op : Word) : Nibble := op.extractLsb' 8 4
/-- `n3 = op[7:4]`, also the field `y` (R61). -/
def Word.n3 (op : Word) : Nibble := op.extractLsb' 4 4
/-- `n4 = op[3:0]`, also the field `n` (R61). -/
def Word.n4 (op : Word) : Nibble := op.extractLsb' 0 4

/-- The 16-bit opcode with these four nibbles, `n1` the most significant (R61). -/
def Word.ofNibbles (n1 n2 n3 n4 : Nibble) : Word := n1 ++ n2 ++ n3 ++ n4

/-- The instruction with these nibbles, or none: the rows of R64. `nn` is `{n3, n4}` and `nnn` is `{n2, n3, n4}`. -/
def decodeNibbles (n1 n2 n3 n4 : Nibble) : Option Instr :=
  let nn : Byte := n3 ++ n4
  let nnn : Imm12 := n2 ++ n3 ++ n4
  match n1 with
  | 0x0#4 =>
    if nnn = 0x000#12 then some .nop
    else if nnn = 0x0E0#12 then some .cls
    else if nnn = 0x0EE#12 then some .ret
    else none
  | 0x1#4 => some (.jp nnn)
  | 0x2#4 => some (.call nnn)
  | 0x3#4 => some (.seImm n2 nn)
  | 0x4#4 => some (.sneImm n2 nn)
  | 0x5#4 => if n4 = 0x0#4 then some (.seReg n2 n3) else none
  | 0x6#4 => some (.ldImm n2 nn)
  | 0x7#4 => some (.addImm n2 nn)
  | 0x8#4 =>
    match n4 with
    | 0x0#4 => some (.ldReg n2 n3)
    | 0x1#4 => some (.orReg n2 n3)
    | 0x2#4 => some (.andReg n2 n3)
    | 0x3#4 => some (.xorReg n2 n3)
    | 0x4#4 => some (.addReg n2 n3)
    | 0x5#4 => some (.sub n2 n3)
    | 0x6#4 => some (.shr n2 n3)
    | 0x7#4 => some (.subn n2 n3)
    | 0xE#4 => some (.shl n2 n3)
    | _ => none
  | 0x9#4 => if n4 = 0x0#4 then some (.sneReg n2 n3) else none
  | 0xA#4 => some (.ldI nnn)
  | 0xB#4 => some (.jpV0 nnn)
  | 0xC#4 => some (.rnd n2 nn)
  | 0xD#4 => some (.drw n2 n3 n4)
  | 0xE#4 =>
    match nn with
    | 0x9E#8 => some (.skp n2)
    | 0xA1#8 => some (.sknp n2)
    | _ => none
  | 0xF#4 =>
    match nn with
    | 0x07#8 => some (.ldVxDt n2)
    | 0x0A#8 => some (.ldVxK n2)
    | 0x15#8 => some (.ldDtVx n2)
    | 0x18#8 => some (.ldStVx n2)
    | 0x1E#8 => some (.addI n2)
    | 0x29#8 => some (.ldF n2)
    | 0x33#8 => some (.ldB n2)
    | 0x55#8 => some (.ldMemVx n2)
    | 0x65#8 => some (.ldVxMem n2)
    | _ => none
  | _ => none

/-- Decode an opcode: split it into its nibbles and find its row (R83); none is `UnknownOpcode` (R67). -/
def decodeWord (op : Word) : Option Instr := decodeNibbles op.n1 op.n2 op.n3 op.n4

/-- Why bytes do not decode. -/
inductive DecodeError where
  /-- Fewer than two bytes: every instruction is exactly two bytes (R60). -/
  | truncated
  /-- The opcode matches no row of R64 (R67). -/
  | unknownOpcode (op : Word)
deriving DecidableEq, Repr

/-- Decode the instruction at the head of a byte sequence, big-endian (R45, R60), and return the bytes after it. -/
def decode : List Byte → Except DecodeError (Instr × List Byte)
  | hi :: lo :: rest =>
    match decodeWord (hi ++ lo) with
    | some i => .ok (i, rest)
    | none => .error (.unknownOpcode (hi ++ lo))
  | _ => .error .truncated

/-- The high nibble of an immediate byte. -/
def Byte.hiNibble (b : Byte) : Nibble := b.extractLsb' 4 4
/-- The low nibble of an immediate byte. -/
def Byte.loNibble (b : Byte) : Nibble := b.extractLsb' 0 4

/-- The opcode of format NNN (R62). -/
def encodeNNN (n1 : Nibble) (nnn : Imm12) : Word :=
  Word.ofNibbles n1 (nnn.extractLsb' 8 4) (nnn.extractLsb' 4 4) (nnn.extractLsb' 0 4)

/-- The opcode of format XNN (R62), and of format X with its fixed low byte. -/
def encodeXNN (n1 : Nibble) (x : RegIdx) (nn : Byte) : Word :=
  Word.ofNibbles n1 x (Byte.hiNibble nn) (Byte.loNibble nn)

/-- The 16-bit opcode of an instruction, from the patterns of R64. -/
def encode : Instr → Word
  | .nop => 0x0000#16
  | .cls => 0x00E0#16
  | .ret => 0x00EE#16
  | .jp nnn => encodeNNN 0x1#4 nnn
  | .call nnn => encodeNNN 0x2#4 nnn
  | .seImm x nn => encodeXNN 0x3#4 x nn
  | .sneImm x nn => encodeXNN 0x4#4 x nn
  | .seReg x y => Word.ofNibbles 0x5#4 x y 0x0#4
  | .ldImm x nn => encodeXNN 0x6#4 x nn
  | .addImm x nn => encodeXNN 0x7#4 x nn
  | .ldReg x y => Word.ofNibbles 0x8#4 x y 0x0#4
  | .orReg x y => Word.ofNibbles 0x8#4 x y 0x1#4
  | .andReg x y => Word.ofNibbles 0x8#4 x y 0x2#4
  | .xorReg x y => Word.ofNibbles 0x8#4 x y 0x3#4
  | .addReg x y => Word.ofNibbles 0x8#4 x y 0x4#4
  | .sub x y => Word.ofNibbles 0x8#4 x y 0x5#4
  | .shr x y => Word.ofNibbles 0x8#4 x y 0x6#4
  | .subn x y => Word.ofNibbles 0x8#4 x y 0x7#4
  | .shl x y => Word.ofNibbles 0x8#4 x y 0xE#4
  | .sneReg x y => Word.ofNibbles 0x9#4 x y 0x0#4
  | .ldI nnn => encodeNNN 0xA#4 nnn
  | .jpV0 nnn => encodeNNN 0xB#4 nnn
  | .rnd x nn => encodeXNN 0xC#4 x nn
  | .drw x y n => Word.ofNibbles 0xD#4 x y n
  | .skp x => encodeXNN 0xE#4 x 0x9E#8
  | .sknp x => encodeXNN 0xE#4 x 0xA1#8
  | .ldVxDt x => encodeXNN 0xF#4 x 0x07#8
  | .ldVxK x => encodeXNN 0xF#4 x 0x0A#8
  | .ldDtVx x => encodeXNN 0xF#4 x 0x15#8
  | .ldStVx x => encodeXNN 0xF#4 x 0x18#8
  | .addI x => encodeXNN 0xF#4 x 0x1E#8
  | .ldF x => encodeXNN 0xF#4 x 0x29#8
  | .ldB x => encodeXNN 0xF#4 x 0x33#8
  | .ldMemVx x => encodeXNN 0xF#4 x 0x55#8
  | .ldVxMem x => encodeXNN 0xF#4 x 0x65#8

/-- The two bytes of an opcode as memory holds them: big-endian, the more significant byte at the lower address (R45). -/
def Word.bytes (op : Word) : List Byte := [op.extractLsb' 8 8, op.extractLsb' 0 8]

/-- The bytes of an instruction as memory holds them. -/
def encodeBytes (i : Instr) : List Byte := (encode i).bytes

/-- One row of the opcode map of R64: an opcode `op` is the row's instruction when `op AND mask == match`. -/
structure OpcodeRow where
  mnemonic : String
  matchBits : Word
  mask : Word
deriving DecidableEq, Repr

/-- The opcode map of R64, row by row, with the identifiers of R71. -/
def opcodeMap : List OpcodeRow :=
  [⟨"NOP", 0x0000#16, 0xFFFF#16⟩, ⟨"CLS", 0x00E0#16, 0xFFFF#16⟩, ⟨"RET", 0x00EE#16, 0xFFFF#16⟩,
   ⟨"JP", 0x1000#16, 0xF000#16⟩, ⟨"CALL", 0x2000#16, 0xF000#16⟩, ⟨"SE_IMM", 0x3000#16, 0xF000#16⟩,
   ⟨"SNE_IMM", 0x4000#16, 0xF000#16⟩, ⟨"SE_REG", 0x5000#16, 0xF00F#16⟩, ⟨"LD_IMM", 0x6000#16, 0xF000#16⟩,
   ⟨"ADD_IMM", 0x7000#16, 0xF000#16⟩] ++
  [⟨"LD_REG", 0x8000#16, 0xF00F#16⟩, ⟨"OR", 0x8001#16, 0xF00F#16⟩, ⟨"AND", 0x8002#16, 0xF00F#16⟩,
   ⟨"XOR", 0x8003#16, 0xF00F#16⟩, ⟨"ADD_REG", 0x8004#16, 0xF00F#16⟩, ⟨"SUB", 0x8005#16, 0xF00F#16⟩,
   ⟨"SHR", 0x8006#16, 0xF00F#16⟩, ⟨"SUBN", 0x8007#16, 0xF00F#16⟩, ⟨"SHL", 0x800E#16, 0xF00F#16⟩,
   ⟨"SNE_REG", 0x9000#16, 0xF00F#16⟩] ++
  [⟨"LD_I", 0xA000#16, 0xF000#16⟩, ⟨"JP_V0", 0xB000#16, 0xF000#16⟩, ⟨"RND", 0xC000#16, 0xF000#16⟩,
   ⟨"DRW", 0xD000#16, 0xF000#16⟩, ⟨"SKP", 0xE09E#16, 0xF0FF#16⟩, ⟨"SKNP", 0xE0A1#16, 0xF0FF#16⟩] ++
  [⟨"LD_VX_DT", 0xF007#16, 0xF0FF#16⟩, ⟨"LD_VX_K", 0xF00A#16, 0xF0FF#16⟩, ⟨"LD_DT_VX", 0xF015#16, 0xF0FF#16⟩,
   ⟨"LD_ST_VX", 0xF018#16, 0xF0FF#16⟩, ⟨"ADD_I", 0xF01E#16, 0xF0FF#16⟩, ⟨"LD_F", 0xF029#16, 0xF0FF#16⟩,
   ⟨"LD_B", 0xF033#16, 0xF0FF#16⟩, ⟨"LD_MEM_VX", 0xF055#16, 0xF0FF#16⟩, ⟨"LD_VX_MEM", 0xF065#16, 0xF0FF#16⟩]

/-- An opcode matches a row of the opcode map (R64). -/
def OpcodeRow.accepts (r : OpcodeRow) (op : Word) : Bool := op &&& r.mask == r.matchBits

/-- The identifier of an instruction's row in the opcode map (R71). -/
def Instr.mnemonic : Instr → String
  | .nop => "NOP" | .cls => "CLS" | .ret => "RET" | .jp _ => "JP" | .call _ => "CALL"
  | .seImm _ _ => "SE_IMM" | .sneImm _ _ => "SNE_IMM" | .seReg _ _ => "SE_REG"
  | .ldImm _ _ => "LD_IMM" | .addImm _ _ => "ADD_IMM" | .ldReg _ _ => "LD_REG"
  | .orReg _ _ => "OR" | .andReg _ _ => "AND" | .xorReg _ _ => "XOR" | .addReg _ _ => "ADD_REG"
  | .sub _ _ => "SUB" | .shr _ _ => "SHR" | .subn _ _ => "SUBN" | .shl _ _ => "SHL"
  | .sneReg _ _ => "SNE_REG" | .ldI _ => "LD_I" | .jpV0 _ => "JP_V0" | .rnd _ _ => "RND"
  | .drw _ _ _ => "DRW" | .skp _ => "SKP" | .sknp _ => "SKNP" | .ldVxDt _ => "LD_VX_DT"
  | .ldVxK _ => "LD_VX_K" | .ldDtVx _ => "LD_DT_VX" | .ldStVx _ => "LD_ST_VX" | .addI _ => "ADD_I"
  | .ldF _ => "LD_F" | .ldB _ => "LD_B" | .ldMemVx _ => "LD_MEM_VX" | .ldVxMem _ => "LD_VX_MEM"

/-- The opcode whose bits are the low `nbits` bits of `w`; the bits above are 0. -/
def tableWord (nbits w : Nat) : Word := BitVec.ofNat 16 (w % 2 ^ nbits)

/-- The host's question about an opcode-table row: lay the word out as memory holds it and decode those bytes. -/
def decodeTableWord (nbits w : Nat) : Option Instr :=
  match decode (tableWord nbits w).bytes with
  | .ok (i, _) => some i
  | .error _ => none

end Sys2Proof
end

