-- ==== Sys2Proof/Config.lean ====
section
/-! DEFINITION. What the spec leaves free. The implementation parameters of R5 that the source gives have one value each and
stand as numerals where a rule uses them; the parameter `FONT`, which it does not give, is an argument of the model, the
field `font` of memory (log 1). -/

namespace Sys2Proof

/-- The random input `rnd`: `Config.rnd n` is the byte drawn by the `n`-th `Cxnn` (R112, R184, D10). A FREE VALUE: it
has no body, so nothing is assumed of it, neither a law nor that two draws differ (log 2). -/
opaque Config.rnd : Nat → Byte

end Sys2Proof
end

