-- ==== Sys2Proof/Machine/Font.lean ====
section
/-! DEFINITION. The `FONT` parameter (R5, R43, R44, D11): 80 bytes that the source does not give. The model takes them as
an argument, the field `font` of memory (Machine/State.lean), and no operation depends on their value. The table here is
only the DEFAULT that R44 prints (G1, from general knowledge): the build whose reset state is `State.reset` (log 1). -/

namespace Sys2Proof.Machine

/-- A value of the parameter `FONT`: 80 bytes, glyph `d` the five bytes from `5*d`, top row first (R5, R43). -/
abbrev Font := Vector Byte 80

/-- The 80 bytes of the default table (R44, G1): glyph `d` is the five bytes from `5*d`, top row first (R43, R44). -/
def fontTable : List Byte :=
  [0xF0, 0x90, 0x90, 0x90, 0xF0] ++ -- 0
  [0x20, 0x60, 0x20, 0x20, 0x70] ++ -- 1
  [0xF0, 0x10, 0xF0, 0x80, 0xF0] ++ -- 2
  [0xF0, 0x10, 0xF0, 0x10, 0xF0] ++ -- 3
  [0x90, 0x90, 0xF0, 0x10, 0x10] ++ -- 4
  [0xF0, 0x80, 0xF0, 0x10, 0xF0] ++ -- 5
  [0xF0, 0x80, 0xF0, 0x90, 0xF0] ++ -- 6
  [0xF0, 0x10, 0x20, 0x40, 0x40] ++ -- 7
  [0xF0, 0x90, 0xF0, 0x90, 0xF0] ++ -- 8
  [0xF0, 0x90, 0xF0, 0x10, 0xF0] ++ -- 9
  [0xF0, 0x90, 0xF0, 0x90, 0x90] ++ -- A
  [0xE0, 0x90, 0xE0, 0x90, 0xE0] ++ -- B
  [0xF0, 0x80, 0x80, 0x80, 0xF0] ++ -- C
  [0xE0, 0x90, 0x90, 0x90, 0xE0] ++ -- D
  [0xF0, 0x80, 0xF0, 0x80, 0xF0] ++ -- E
  [0xF0, 0x80, 0xF0, 0x80, 0x80]    -- F

/-- The default value of the parameter (R44, G1; log 1). -/
def defaultFont : Font := ⟨fontTable.toArray, rfl⟩

end Sys2Proof.Machine
end

