-- ==== Sys2Proof/Machine/State.lean ====
section
/-! DEFINITION. The state of the machine (spec 10_state.md) as plain data, the reasons an operation can fail, and the
state after reset (R31, R197). -/

namespace Sys2Proof.Machine

/-- The seven fatal conditions of R165. A fatal condition is not a stop of the MODEL: an operation that meets one
answers a next state with the condition latched in `State.fault` (R170; log 4). Safe: the latched state says exactly
what R170 says. `Host.Outcome.fault` is never answered. -/
inductive Fault where
  /-- Code 1: fetch, when `pc >= 4095` (R166). Raised by every tick; safe. -/
  | outOfBoundsFetch
  /-- Code 2: 2nnn, when `sp == 16` (R167); safe. -/
  | stackOverflow
  /-- Code 3: 00EE, when `sp == 0` (R168); safe. -/
  | stackUnderflow
  /-- Code 4: decode, when the opcode matches no row of R64 (R169). Raised by every tick; safe. -/
  | unknownOpcode
  /-- Code 5: Dxyn, Fx33, Fx55, Fx65, when a byte to be accessed lies at 4096 or above (R171); safe. -/
  | outOfBoundsMemory
  /-- Code 6: Ex9E, ExA1, when `v[x] > 15` (R172); safe. -/
  | keyIndexOutOfRange
  /-- Code 7: the host operation `load`, when there are more than 3584 bytes (R173); safe. -/
  | loadOverflow
deriving DecidableEq, Repr

/-- Why the model gives an instruction no meaning. -/
inductive Refusal where
  /-- The instruction has no meaning in the model yet. Raised by an arm of `exec` only; no arm does. Safe. -/
  | notModelled (mnemonic : String)
deriving DecidableEq, Repr

/-- One operation of the host on a machine that exists already (R195; `new()` is `State.reset`, R198). -/
inductive HostOp where
  /-- One fetch-decode-execute cycle (R80). -/
  | tick
  /-- One decrement step of both timers (R177). -/
  | tickTimers
  /-- Set the level of key `k`; the index is 4 bits wide (R183, D19). -/
  | keyPressed (k : RegIdx) (pressed : Bool)
  /-- Copy bytes to memory from 0x200 (R199). -/
  | load (bytes : List Byte)
  /-- Every piece of state to its reset value (R197). -/
  | reset
  /-- Read the display; no effect on the state (R182). -/
  | getDisplay
deriving DecidableEq, Repr

/-- Memory: the bytes that differ from the reset contents, as (address, byte) pairs in strictly rising order, and the
parameter `FONT`, which the reset contents hold at 0 to 79. What an address not listed reads as is `unlisted`
(Machine/Ops.lean); the canonical form is `Memory.wf` there. -/
structure Memory where
  /-- The parameter `FONT` of this build (R5, R44, D11): fixed for the life of a machine, written by nothing (log 1). -/
  font : Font
  /-- The listed bytes (R28, R40). -/
  cells : List Host.Cell
deriving DecidableEq, Repr

/-- The display: 32 rows of 64 one-bit cells; cell `display[x + 64*y]` of R24 is bit `x` of row `y` (log 8). -/
abbrev Display := Vector (BitVec 64) 32

/-- All the state of 10_state.md, and two fields of the model's own, `hostOps` and `draws`. -/
structure State where
  /-- The program counter (R14). -/
  pc : Word
  /-- The general registers `v[0]` to `v[15]`; `v[15]` is the flag register (R10, R12). -/
  v : Vector Byte 16
  /-- The index register (R17). -/
  i : Word
  /-- The number of return addresses held, 0 to 16 (R19; log 7). -/
  sp : Fin 17
  /-- The call stack (R19). -/
  stack : Vector Word 16
  /-- The delay timer (R22). -/
  dt : Byte
  /-- The sound timer (R23). -/
  st : Byte
  /-- Memory (R28, R40). -/
  mem : Memory
  /-- The display buffer (R24). -/
  display : Display
  /-- The key levels, true while held (R26). -/
  keys : Vector Bool 16
  /-- The fault latch: none while running, else the cause (R27; log 7). -/
  fault : Option Fault
  /-- The MODEL's own: the operations the host issues next, first one first (R195, R196; log 3). -/
  hostOps : List HostOp
  /-- The MODEL's own: how many random bytes have been drawn (R112, R184; log 2). -/
  draws : Nat
deriving DecidableEq, Repr

/-- The machine right after reset (R31, R197), for any value of the parameter `FONT` (R5, D11): memory holds its reset
contents, so nothing is listed. `hostOps` and `draws` are the model's own (log 9). -/
def State.resetWith (font : Font) : State where
  pc := 0x200#16
  v := Vector.replicate 16 0#8
  i := 0#16
  sp := 0
  stack := Vector.replicate 16 0#16
  dt := 0#8
  st := 0#8
  mem := { font := font, cells := [] }
  display := Vector.replicate 32 0#64
  keys := Vector.replicate 16 false
  fault := none
  hostOps := []
  draws := 0

/-- The machine right after reset, for the default value of `FONT` (R44, G1; log 1). -/
def State.reset : State := State.resetWith defaultFont

end Sys2Proof.Machine
end

