-- ==== Sys2Proof/Machine/Ops.lean ====
section
/-! DEFINITION. The named operations over memory, registers, stack, keys and display; taking a fault and the reset that
alone leaves it; instruction fetch. Every meaning is written over these. -/

namespace Sys2Proof.Machine

/-- What every operation answers. -/
abbrev Result := Host.Outcome State Fault Refusal

/-! ### Memory (20_memory.md) -/

/-- What an address that memory does not list reads as: its reset contents (R42, R31): `FONT` at 0 to 79, else 0. -/
def unlisted (font : Font) (a : Nat) : Byte := if h : a < 80 then font[a] else 0#8

/-- The byte at address `a`: the listed one, else the reset contents. -/
def readCells (font : Font) : List Host.Cell → Nat → Byte
  | [], a => unlisted font a
  | (a', b) :: m, a => if a' = a then b else readCells font m a

/-- `MemRead(a, 1)` (R7, R49). Every rule checks its addresses first, so `a` is below 4096 (R48; log 6). -/
def Memory.read (m : Memory) (a : Nat) : Byte := readCells m.font m.cells a

/-- Put byte `b` at address `a` in canonical form: the pairs stay sorted, and a byte equal to its reset contents is not
listed. -/
def putCells (font : Font) : List Host.Cell → Nat → Byte → List Host.Cell
  | [], a, b => if b = unlisted font a then [] else [(a, b)]
  | (a', b') :: m, a, b =>
    if a < a' then (if b = unlisted font a then (a', b') :: m else (a, b) :: (a', b') :: m)
    else if a = a' then (if b = unlisted font a then m else (a, b) :: m)
    else (a', b') :: putCells font m a b

/-- `MemWrite(a, 1, b)` (R7). Every rule checks its addresses first; an address past the end holds nothing (log 6). -/
def Memory.write (m : Memory) (a : Nat) (b : Byte) : Memory :=
  if a < 4096 then { m with cells := putCells m.font m.cells a b } else m

/-- Write bytes at ascending addresses from `a` (R49). -/
def Memory.writeBytes : Memory → Nat → List Byte → Memory
  | m, _, [] => m
  | m, a, b :: bs => Memory.writeBytes (m.write a b) (a + 1) bs

/-- Read `n` bytes at ascending addresses from `a` (R49). -/
def Memory.readBytes (m : Memory) : Nat → Nat → List Byte
  | _, 0 => []
  | a, n + 1 => m.read a :: Memory.readBytes m (a + 1) n

/-- The canonical form from lower bound `lo`: addresses at least `lo`, strictly rising, below 4096, and no byte equal to
its reset contents. -/
def wfCells (font : Font) : Nat → List Host.Cell → Bool
  | _, [] => true
  | lo, (a, b) :: m =>
    decide (lo ≤ a) && decide (a < 4096) && decide (b ≠ unlisted font a) && wfCells font (a + 1) m

/-- The canonical form of memory. -/
def Memory.wf (m : Memory) : Bool := wfCells m.font 0 m.cells

/-! ### Registers -/

/-- Read `v[x]` (R7, R11). -/
def State.reg (s : State) (x : RegIdx) : Byte := s.v[x.toNat]'x.isLt

/-- `v[x] <- b` (R7, R11). -/
def State.setReg (s : State) (x : RegIdx) (b : Byte) : State := { s with v := s.v.set x.toNat b x.isLt }

/-- `pc <- a` (R7). -/
def State.setPc (s : State) (a : Word) : State := { s with pc := a }

/-- `i <- a` (R7, R17). -/
def State.setI (s : State) (a : Word) : State := { s with i := a }

/-- `dt <- b` (R22). -/
def State.setDt (s : State) (b : Byte) : State := { s with dt := b }

/-- `st <- b` (R23). -/
def State.setSt (s : State) (b : Byte) : State := { s with st := b }

/-- Replace memory. -/
def State.setMem (s : State) (m : Memory) : State := { s with mem := m }

/-- Replace the display. -/
def State.setDisplay (s : State) (d : Display) : State := { s with display := d }

/-- Copy bytes into registers from index `k` upward (R125). -/
def loadRegs (v : Vector Byte 16) (k : Nat) : List Byte → Vector Byte 16
  | [] => v
  | b :: bs => loadRegs (v.setIfInBounds k b) (k + 1) bs

/-! ### Keys (R26, R156) -/

/-- The level of key `k`. -/
def State.key (s : State) (k : RegIdx) : Bool := s.keys[k.toNat]'k.isLt

/-- `keys[k] <- p` (R183). -/
def State.setKey (s : State) (k : RegIdx) (p : Bool) : State := { s with keys := s.keys.set k.toNat p k.isLt }

/-- The first pressed key of an ascending scan whose first level is key `k` (R152). -/
def scanKeys (k : Nat) : List Bool → Option Nat
  | [] => none
  | p :: ps => if p then some k else scanKeys (k + 1) ps

/-- The smallest key code that is pressed (R152). -/
def State.firstKey (s : State) : Option Nat := scanKeys 0 s.keys.toList

/-! ### Display cells (R24) -/

/-- `display[k]`, `k = x + 64*y` (R24); false past the last cell. -/
def Display.cell (d : Display) (k : Nat) : Bool := if h : k / 64 < 32 then d[k / 64].getLsbD (k % 64) else false

/-- `display[k] <- display[k] XOR bit` (R137). -/
def Display.xorCell (d : Display) (k : Nat) (bit : Bool) : Display :=
  if h : k / 64 < 32 then d.set (k / 64) (d[k / 64] ^^^ (if bit then BitVec.twoPow 64 (k % 64) else 0#64)) h else d

/-- Every cell 0 (R135). -/
def Display.blank : Display := Vector.replicate 32 0#64

/-- The read-only display accessor `get_display()`: cell at column `x`, row `y` (R24, R182). -/
def State.pixel (s : State) (x y : Nat) : Bool := s.display.cell (x + 64 * y)

/-! ### Taking a fault (60_exceptions.md section 2) -/

/-- The cause code of a fatal condition (R165, D4). -/
def Fault.code : Fault → BitVec 3
  | .outOfBoundsFetch => 1#3
  | .stackOverflow => 2#3
  | .stackUnderflow => 3#3
  | .unknownOpcode => 4#3
  | .outOfBoundsMemory => 5#3
  | .keyIndexOutOfRange => 6#3
  | .loadOverflow => 7#3

/-- The 3-bit `fault` register as the host reads it: 0 while running, else the cause code (R27, R86). -/
def State.faultCode (s : State) : BitVec 3 :=
  match s.fault with
  | none => 0#3
  | some f => f.code

/-- The `Ok` or `Err(cause)` that `tick` and `load` return, read from the latch they leave (R86, R186, R199). -/
def State.opResult (s : State) : Except Fault Unit :=
  match s.fault with
  | none => .ok ()
  | some f => .error f

/-- The output `snd_active` (R179, D18). -/
def State.sndActive (s : State) : Bool := decide (s.st ≠ 0#8)

/-- `fault <- code(F)` (R170). -/
def State.latch (s : State) (f : Fault) : State := { s with fault := some f }

/-- `raise F` (R170): latch the cause and end the operation; nothing else changes, and there is no handler to go to. -/
def raise (f : Fault) (s : State) : Result := .next (s.latch f)

/-- Do what a check allows: raise its fault in the state it was made in, before any effect (R85), or go on. -/
def attempt {α : Type} (s : State) (check : Except Fault α) (go : α → State) : Result :=
  match check with
  | .error f => raise f s
  | .ok a => .next (go a)

/-- The host operation `reset()` (R197), the only way out of a fault (R175, R186): every piece of the spec's state to its
reset value, in every state, memory to the `FONT` of this build. What the host issues next and which draw comes next are not the machine's (log 2, log 3). -/
def State.performReset (s : State) : State :=
  { State.resetWith s.mem.font with hostOps := s.hostOps, draws := s.draws }

/-! ### The call stack (R19 to R21) -/

/-- `push(a)` (R20): `StackOverflow` if `sp == 16`, else store at `stack[sp]` and increment `sp`. -/
def State.push (s : State) (a : Word) : Except Fault State :=
  if h : s.sp.val < 16 then
    .ok { s with stack := s.stack.set s.sp.val a h, sp := ⟨s.sp.val + 1, Nat.succ_lt_succ h⟩ }
  else .error .stackOverflow

/-- `pop()` (R21): `StackUnderflow` if `sp == 0`, else decrement `sp` and return `stack[sp]`, which is not cleared. -/
def State.pop (s : State) : Except Fault (Word × State) :=
  match s.sp with
  | ⟨0, _⟩ => .error .stackUnderflow
  | ⟨n + 1, h⟩ => .ok (s.stack[n]'(Nat.lt_of_succ_lt_succ h), { s with sp := ⟨n, Nat.lt_of_succ_lt h⟩ })

/-! ### Instruction fetch (R46) -/

/-- The two bytes at address `a`, big-endian (R45, R46). -/
def State.opcodeAt (s : State) (a : Nat) : Word := s.mem.read a ++ s.mem.read (a + 1)

/-- `fetch()` (R46, R82): `OutOfBoundsFetch` if `pc >= 4095`, with `pc` unchanged; else the opcode at `pc`, and `pc`
advanced by 2. -/
def State.fetch (s : State) : Except Fault (Word × State) :=
  if 4095 ≤ s.pc.toNat then .error .outOfBoundsFetch
  else .ok (s.opcodeAt s.pc.toNat, s.setPc (s.pc + 2#16))

/-- `skip` when a condition holds: `pc <- pc + 2` (R7). -/
def State.skipIf (s : State) (c : Bool) : State := if c then s.setPc (s.pc + 2#16) else s

end Sys2Proof.Machine
end

