-- ==== Sys2Proof/Machine/Flags.lean ====
section
/-! DEFINITION. The flag computations (R13, R100): the flag register is `v[15]`, written with 0 or 1 only (R12), last
in its instruction (R113). -/

namespace Sys2Proof.Machine

/-- The flag of 8xy4: the exact sum fits in 0 to 255. True is NO overflow (R107, D25). -/
def noOverflow (a b : Byte) : Bool := decide (a.toNat + b.toNat ≤ 255)

/-- The flag of `a - b`: no borrow (R108, R110). -/
def noBorrow (a b : Byte) : Bool := decide (b.toNat ≤ a.toNat)

/-- The bit 8xy6 shifts out (R109). -/
def lowBit (a : Byte) : Bool := a.getLsbD 0

/-- The bit 8xyE shifts out (R111). -/
def topBit (a : Byte) : Bool := a.getLsbD 7

/-- A flag as the byte written: 1 or 0 (R12). -/
def flagByte (c : Bool) : Byte := if c then 1#8 else 0#8

/-- `v[15] <- (if c then 1 else 0)` (R12, R113). -/
def State.setFlag (s : State) (c : Bool) : State := s.setReg 15#4 (flagByte c)

/-- `v[x] <- r`, then `v[15] <- flag`: the order of R113, so with `x = 15` the flag is what stays. -/
def State.setRegFlag (s : State) (x : RegIdx) (r : Byte) (c : Bool) : State := (s.setReg x r).setFlag c

end Sys2Proof.Machine
end

