-- ==== Sys2Proof/Machine/Operands.lean ====
section
/-! DEFINITION. The operand forms: immediates widened to 16 bits (R63), the one data addressing mode `i + k` with its
bounds check (R48, R126), the key code of a register (R150), the decimal digits of a register (R123). -/

namespace Sys2Proof.Machine

/-- `zext_16(nnn)` (R63). -/
def zextImm (nnn : Imm12) : Word := nnn.setWidth 16

/-- `zext_16(v[x])` (R98, R121, R122). -/
def zextByte (b : Byte) : Word := b.setWidth 16

/-- The effective address of the `k`-th byte an instruction touches: `i + k`, exact, never wrapped (R126). -/
def State.effAddr (s : State) (k : Nat) : Nat := s.i.toNat + k

/-- The check before an access to `k` bytes at `i` (R48): `OutOfBoundsMemory` if `k >= 1` and the last byte lies at 4096
or above. -/
def State.checkAccess (s : State) (k : Nat) : Except Fault Unit :=
  if 1 ≤ k ∧ 4096 ≤ s.effAddr (k - 1) then .error .outOfBoundsMemory else .ok ()

/-- The key code in `v[x]` (R150): `KeyIndexOutOfRange` if it is above 15; it is never masked (D8). -/
def State.keyOperand (s : State) (x : RegIdx) : Except Fault RegIdx :=
  if 15 < (s.reg x).toNat then .error .keyIndexOutOfRange else .ok ((s.reg x).setWidth 4)

/-- The decimal digits of a byte: hundreds, tens, ones (R123). -/
def bcdDigits (a : Byte) : List Byte := [a / 100#8, (a / 10#8) % 10#8, a % 10#8]

/-- `v[0]` to `v[x]`, in order (R124). -/
def State.regsUpTo (s : State) (x : RegIdx) : List Byte := s.v.toList.take (x.toNat + 1)

/-- One draw of the random input (R112, R184): a free byte, and the count of draws goes up (log 2). -/
def State.draw (s : State) : Byte × State := (Config.rnd s.draws, { s with draws := s.draws + 1 })

end Sys2Proof.Machine
end

