-- ==== Sys2Proof/Machine/Alu.lean ====
section
/-! DEFINITION. Register load, arithmetic, logic, shift and random instructions (spec 42_alu.md). Operands are read from
the state before the instruction, then `v[x]` is written, then `v[15]` (R113). -/

namespace Sys2Proof.Machine

/-- 6xnn `LD Vx, nn` (R101). -/
def execLdImm (x : RegIdx) (nn : Byte) (s : State) : Result := .next (s.setReg x nn)

/-- 7xnn `ADD Vx, nn` (R102): modulo 256, no flag. -/
def execAddImm (x : RegIdx) (nn : Byte) (s : State) : Result := .next (s.setReg x (s.reg x + nn))

/-- 8xy0 `LD Vx, Vy` (R103). -/
def execLdReg (x y : RegIdx) (s : State) : Result := .next (s.setReg x (s.reg y))

/-- 8xy1 `OR Vx, Vy` (R104). -/
def execOrReg (x y : RegIdx) (s : State) : Result := .next (s.setReg x (s.reg x ||| s.reg y))

/-- 8xy2 `AND Vx, Vy` (R105). -/
def execAndReg (x y : RegIdx) (s : State) : Result := .next (s.setReg x (s.reg x &&& s.reg y))

/-- 8xy3 `XOR Vx, Vy` (R106). -/
def execXorReg (x y : RegIdx) (s : State) : Result := .next (s.setReg x (s.reg x ^^^ s.reg y))

/-- 8xy4 `ADD Vx, Vy` (R107): flag 1 means NO overflow. -/
def execAddReg (x y : RegIdx) (s : State) : Result :=
  .next (s.setRegFlag x (s.reg x + s.reg y) (noOverflow (s.reg x) (s.reg y)))

/-- 8xy5 `SUB Vx, Vy` (R108). -/
def execSub (x y : RegIdx) (s : State) : Result :=
  .next (s.setRegFlag x (s.reg x - s.reg y) (noBorrow (s.reg x) (s.reg y)))

/-- 8xy6 `SHR Vx, Vy` (R109): `y` is ignored. -/
def execShr (x _y : RegIdx) (s : State) : Result := .next (s.setRegFlag x (s.reg x >>> 1) (lowBit (s.reg x)))

/-- 8xy7 `SUBN Vx, Vy` (R110). -/
def execSubn (x y : RegIdx) (s : State) : Result :=
  .next (s.setRegFlag x (s.reg y - s.reg x) (noBorrow (s.reg y) (s.reg x)))

/-- 8xyE `SHL Vx, Vy` (R111): `y` is ignored. -/
def execShl (x _y : RegIdx) (s : State) : Result := .next (s.setRegFlag x (s.reg x <<< 1) (topBit (s.reg x)))

/-- Cxnn `RND Vx, nn` (R112): a fresh free byte ANDed with `nn`. -/
def execRnd (x : RegIdx) (nn : Byte) (s : State) : Result := .next (s.draw.2.setReg x (s.draw.1 &&& nn))

end Sys2Proof.Machine
end

