-- ==== Sys2Proof/Machine/ControlFlow.lean ====
section
/-! DEFINITION. Control flow (spec 41_control_flow.md). `s.pc` is already the address of the opcode plus 2 (R82). No
target is checked when `pc` is written (R99). -/

namespace Sys2Proof.Machine

/-- 0000 `NOP` (R90). -/
def execNop (s : State) : Result := .next s

/-- 00EE `RET` (R91). -/
def execRet (s : State) : Result := attempt s s.pop fun r => r.2.setPc r.1

/-- 1nnn `JP nnn` (R92). -/
def execJp (nnn : Imm12) (s : State) : Result := .next (s.setPc (zextImm nnn))

/-- 2nnn `CALL nnn` (R93): the pushed address is the advanced `pc`. -/
def execCall (nnn : Imm12) (s : State) : Result := attempt s (s.push s.pc) fun t => t.setPc (zextImm nnn)

/-- 3xnn `SE Vx, nn` (R94). -/
def execSeImm (x : RegIdx) (nn : Byte) (s : State) : Result := .next (s.skipIf (decide (s.reg x = nn)))

/-- 4xnn `SNE Vx, nn` (R95). -/
def execSneImm (x : RegIdx) (nn : Byte) (s : State) : Result := .next (s.skipIf (decide (s.reg x ≠ nn)))

/-- 5xy0 `SE Vx, Vy` (R96). -/
def execSeReg (x y : RegIdx) (s : State) : Result := .next (s.skipIf (decide (s.reg x = s.reg y)))

/-- 9xy0 `SNE Vx, Vy` (R97). -/
def execSneReg (x y : RegIdx) (s : State) : Result := .next (s.skipIf (decide (s.reg x ≠ s.reg y)))

/-- Bnnn `JP V0, nnn` (R98): the register is always `v[0]`, the sum is 16 bits wide. -/
def execJpV0 (nnn : Imm12) (s : State) : Result := .next (s.setPc (zextByte (s.reg 0#4) + zextImm nnn))

end Sys2Proof.Machine
end

