-- ==== Sys2Proof/Machine/Display.lean ====
section
/-! DEFINITION. Display instructions (spec 44_display.md): the draw is the pixel loop of R137, row by row and column by
column, carrying the display and the collision bit. -/

namespace Sys2Proof.Machine

/-- The sprite bit at column offset `c`: bit 7 is the leftmost pixel (R136, D13). -/
def spriteBit (b : Byte) (c : Nat) : Bool := b.getLsbD (7 - c)

/-- The cell of row `r`, column offset `c` of a sprite drawn at (`x0`, `y0`): each pixel wraps on its own, columns modulo
64 and rows modulo 32 (R137, R138, C1). -/
def spriteCell (x0 y0 : Byte) (r c : Nat) : Nat := (x0.toNat + c) % 64 + 64 * ((y0.toNat + r) % 32)

/-- One pixel of the loop of R137: note a lit pixel about to be turned off, then XOR. -/
def plot (k : Nat) (bit : Bool) (acc : Display × Bool) : Display × Bool :=
  (acc.1.xorCell k bit, acc.2 || (bit && acc.1.cell k))

/-- The first `n` columns of sprite row `r`, whose byte is `b` (the inner loop of R137). -/
def drawColumns (x0 y0 : Byte) (r : Nat) (b : Byte) : Nat → Display × Bool → Display × Bool
  | 0, acc => acc
  | c + 1, acc => plot (spriteCell x0 y0 r c) (spriteBit b c) (drawColumns x0 y0 r b c acc)

/-- The first `n` rows of a sprite at `base` (the outer loop of R137). -/
def drawRows (m : Memory) (base : Nat) (x0 y0 : Byte) : Nat → Display × Bool → Display × Bool
  | 0, acc => acc
  | r + 1, acc => drawColumns x0 y0 r (m.read (base + r)) 8 (drawRows m base x0 y0 r acc)

/-- 00E0 `CLS` (R135); `v[15]` is not written. -/
def execCls (s : State) : Result := .next (s.setDisplay Display.blank)

/-- Dxyn `DRW Vx, Vy, n` (R137): coordinates read first, `v[15]` written once, last (R139, D12). -/
def execDrw (x y : RegIdx) (n : Nibble) (s : State) : Result :=
  attempt s (s.checkAccess n.toNat) fun _ =>
    let drawn := drawRows s.mem (s.effAddr 0) (s.reg x) (s.reg y) n.toNat (s.display, false)
    (s.setDisplay drawn.1).setFlag drawn.2

end Sys2Proof.Machine
end

