-- ==== Sys2Proof/Machine/IndexMemory.lean ====
section
/-! DEFINITION. Index register and memory instructions (spec 43_index_memory.md). Data addresses are `i + k`, exact; the
bounds check comes before any effect (R48, R126); `i` is never changed by an access. -/

namespace Sys2Proof.Machine

/-- Annn `LD I, nnn` (R120). -/
def execLdI (nnn : Imm12) (s : State) : Result := .next (s.setI (zextImm nnn))

/-- Fx1E `ADD I, Vx` (R121): modulo 65536, no flag. -/
def execAddI (x : RegIdx) (s : State) : Result := .next (s.setI (s.i + zextByte (s.reg x)))

/-- Fx29 `LD F, Vx` (R122): the whole byte times 5. -/
def execLdF (x : RegIdx) (s : State) : Result := .next (s.setI (zextByte (s.reg x) * 5#16))

/-- Fx33 `LD B, Vx` (R123). -/
def execLdB (x : RegIdx) (s : State) : Result :=
  attempt s (s.checkAccess 3) fun _ => s.setMem (s.mem.writeBytes (s.effAddr 0) (bcdDigits (s.reg x)))

/-- Fx55 `LD [I], Vx` (R124): `v[0]` to `v[x]` to memory. -/
def execLdMemVx (x : RegIdx) (s : State) : Result :=
  attempt s (s.checkAccess (x.toNat + 1)) fun _ => s.setMem (s.mem.writeBytes (s.effAddr 0) (s.regsUpTo x))

/-- Fx65 `LD Vx, [I]` (R125): `x + 1` bytes of memory to `v[0]` to `v[x]`. -/
def execLdVxMem (x : RegIdx) (s : State) : Result :=
  attempt s (s.checkAccess (x.toNat + 1)) fun _ =>
    { s with v := loadRegs s.v 0 (s.mem.readBytes (s.effAddr 0) (x.toNat + 1)) }

end Sys2Proof.Machine
end

