-- ==== Sys2Proof/Machine/KeypadTimers.lean ====
section
/-! DEFINITION. Keypad and timer instructions (spec 45_keypad_timers.md). Key levels are what the host last set (R156). -/

namespace Sys2Proof.Machine

/-- Ex9E `SKP Vx` (R150). -/
def execSkp (x : RegIdx) (s : State) : Result := attempt s (s.keyOperand x) fun k => s.skipIf (s.key k)

/-- ExA1 `SKNP Vx` (R151). -/
def execSknp (x : RegIdx) (s : State) : Result := attempt s (s.keyOperand x) fun k => s.skipIf (!s.key k)

/-- Fx0A `LD Vx, K` (R152): the lowest pressed key, or `pc` taken back so that the same opcode is fetched again. -/
def execLdVxK (x : RegIdx) (s : State) : Result :=
  .next (match s.firstKey with
    | some k => s.setReg x (BitVec.ofNat 8 k)
    | none => s.setPc (s.pc - 2#16))

/-- Fx07 `LD Vx, DT` (R153). -/
def execLdVxDt (x : RegIdx) (s : State) : Result := .next (s.setReg x s.dt)

/-- Fx15 `LD DT, Vx` (R154). -/
def execLdDtVx (x : RegIdx) (s : State) : Result := .next (s.setDt (s.reg x))

/-- Fx18 `LD ST, Vx` (R155). -/
def execLdStVx (x : RegIdx) (s : State) : Result := .next (s.setSt (s.reg x))

end Sys2Proof.Machine
end

