-- ==== Sys2Proof/Machine/HostOps.lean ====
section
/-! DEFINITION. The host operations that run no instruction (spec 70_reset_and_hazards.md, 60_exceptions.md sections 4
and 5). While halted each changes nothing, but for `reset` (R186). -/

namespace Sys2Proof.Machine

/-- A timer one step down, stopping at 0 (R177). -/
def countDown (t : Byte) : Byte := if t = 0#8 then 0#8 else t - 1#8

/-- `tick_timers()` (R177). -/
def State.tickTimers (s : State) : State :=
  match s.fault with
  | some _ => s
  | none => (s.setDt (countDown s.dt)).setSt (countDown s.st)

/-- `key_pressed(k, p)` (R183). -/
def State.keyPressed (s : State) (k : RegIdx) (p : Bool) : State :=
  match s.fault with
  | some _ => s
  | none => s.setKey k p

/-- `load(bytes)` (R199): `LoadOverflow` for more than 3584 bytes, with no byte written; else the bytes from 0x200 on. -/
def loadProgram (bytes : List Byte) (s : State) : Result :=
  match s.fault with
  | some _ => .next s
  | none =>
    if 3584 < bytes.length then raise .loadOverflow s
    else .next (s.setMem (s.mem.writeBytes 0x200 bytes))

end Sys2Proof.Machine
end

