-- ==== Sys2Proof/Machine/Tick.lean ====
section
/-! DEFINITION. The operation `tick` (spec 40_execution_engine.md) and the performance of any host operation (R195). -/

namespace Sys2Proof.Machine

/-- `tick()` (R80): the halted check (R81), fetch (R82), decode (R83), execute (R84). A halted machine is left as it is;
its `Err(fault)` is the latch (R86; log 4). -/
def tick (s : State) : Result :=
  match s.fault with
  | some _ => .next s
  | none =>
    match s.fetch with
    | .error f => raise f s
    | .ok (op, t) =>
      match decodeWord op with
      | none => raise .unknownOpcode t
      | some i => exec i t

/-- One host operation on the machine (R195). -/
def perform (op : HostOp) (s : State) : Result :=
  match op with
  | .tick => tick s
  | .tickTimers => .next s.tickTimers
  | .keyPressed k p => .next (s.keyPressed k p)
  | .load bytes => loadProgram bytes s
  | .reset => .next s.performReset
  | .getDisplay => .next s

/-- Where the next instruction is fetched: at `pc`, or at 0x200 where no fetch is possible at `pc` (R46). -/
def State.fetchHome (s : State) : Word := if 4095 ≤ s.pc.toNat then 0x200#16 else s.pc

/-- The state with these bytes stored where the next instruction is fetched, running, and with no other host operation
before that fetch (log 5). -/
def State.placeAtFetch (s : State) (bytes : List Byte) : State :=
  { s with
    mem := s.mem.writeBytes s.fetchHome.toNat bytes
    pc := s.fetchHome
    fault := none
    hostOps := [] }

end Sys2Proof.Machine
end

