-- ==== Sys2Proof/Machine/Step.lean ====
section
/-! DEFINITION. One step of the model: the next host operation, or a tick where the host has none queued (log 3). -/

namespace Sys2Proof.Machine

/-- One step: perform the first of the host's coming operations (R195, R196), or `tick` where there is none. -/
def step (s : State) : Host.Outcome State Fault Refusal :=
  match s.hostOps with
  | [] => tick s
  | op :: ops => perform op { s with hostOps := ops }

/-- The state with the opcode-table word `w` stored where `step` fetches its next instruction (log 5). -/
def State.withFetchWord (s : State) (nbits w : Nat) : State := s.placeAtFetch (tableWord nbits w).bytes

end Sys2Proof.Machine
end

