-- ==== Sys2Proof/Safety.lean ====
section
/-! DEFINITION. The terms claims are made in: a running machine, the end of a run, the invariant of reachable states,
the parts of the state and what a frame is, and, from each instruction's rule, the parts it writes and the fault it
can meet. -/

namespace Sys2Proof.Machine

/-- The machine is running: no fatal condition has been met (R27). A halted run is a failed run, never a result
(R170). -/
abbrev State.Running (s : State) : Prop := s.fault = none

/-- The recommended end of a run (R201, D21; log 11): running, and the opcode at `pc` is `1nnn` with `nnn = pc`. -/
abbrev State.Ended (s : State) : Prop :=
  s.fault = none ∧ s.pc.toNat < 4095 ∧ ∃ nnn : Imm12, decodeWord (s.opcodeAt s.pc.toNat) = some (.jp nnn) ∧ nnn.toNat = s.pc.toNat

/-- What holds in every state a run from reset reaches (R16, R33): memory is in canonical form, `pc` is at most 4350,
and no stack entry is above 4096. (`sp` is at most 16 by its type.) -/
structure State.Inv (s : State) : Prop where
  mem_wf : s.mem.wf = true
  pc_le : s.pc.toNat ≤ 4350
  stack_le : ∀ k : Fin 16, (s.stack[k]).toNat ≤ 4096

/-- One part of the state, as fine as a frame needs: one register, one byte of memory, one display cell; and
the parameter `FONT`, which nothing writes. -/
inductive Part where
  | pc
  | i
  | sp
  | dt
  | st
  | fault
  | hostOps
  | draws
  | reg (r : RegIdx)
  | stackEntry (k : Fin 16)
  | byte (a : Nat)
  | font
  | cell (k : Nat)
  | key (k : RegIdx)
deriving DecidableEq, Repr

/-- A part is the same in two states; a byte of memory through the model's read of one byte. -/
def Part.same (s t : State) : Part → Prop
  | .pc => t.pc = s.pc
  | .i => t.i = s.i
  | .sp => t.sp = s.sp
  | .dt => t.dt = s.dt
  | .st => t.st = s.st
  | .fault => t.fault = s.fault
  | .hostOps => t.hostOps = s.hostOps
  | .draws => t.draws = s.draws
  | .reg r => t.reg r = s.reg r
  | .stackEntry k => t.stack[k] = s.stack[k]
  | .byte a => t.mem.read a = s.mem.read a
  | .font => t.mem.font = s.mem.font
  | .cell k => t.display.cell k = s.display.cell k
  | .key k => t.key k = s.key k

/-- The frame: from `s` to `t` nothing changed but, perhaps, the parts listed. -/
def Frame (s t : State) (written : List Part) : Prop := ∀ p, p ∉ written → p.same s t

/-- The `n` bytes of memory at `i` (R126). -/
def State.bytesAtI (s : State) (n : Nat) : List Part := (List.range n).map fun k => .byte (s.effAddr k)

/-- Registers `v[0]` to `v[x]`. -/
def regsTo (x : RegIdx) : List Part := (List.range (x.toNat + 1)).map fun k => .reg (BitVec.ofNat 4 k)

/-- The stack entry a push writes: `stack[sp]` (R20). -/
def State.topEntry (s : State) : List Part := if h : s.sp.val < 16 then [.stackEntry ⟨s.sp.val, h⟩] else []

/-- The parts the rule of each instruction names under "State written", beside the `pc` advance of fetch (R84), and the
model's own count of draws for `RND`. -/
def written (s : State) : Instr → List Part
  | .nop => []
  | .cls => (List.range 2048).map .cell
  | .ret => [.sp, .pc]
  | .jp _ | .jpV0 _ => [.pc]
  | .call _ => s.topEntry ++ [.sp, .pc]
  | .seImm _ _ | .sneImm _ _ | .seReg _ _ | .sneReg _ _ | .skp _ | .sknp _ => [.pc]
  | .ldImm x _ | .addImm x _ | .ldReg x _ | .orReg x _ | .andReg x _ | .xorReg x _ | .ldVxDt x => [.reg x]
  | .addReg x _ | .sub x _ | .shr x _ | .subn x _ | .shl x _ => [.reg x, .reg 15#4]
  | .rnd x _ => [.reg x, .draws]
  | .ldI _ | .addI _ | .ldF _ => [.i]
  | .drw _ _ _ => (List.range 2048).map .cell ++ [.reg 15#4]
  | .ldVxK x => [.reg x, .pc]
  | .ldDtVx _ => [.dt]
  | .ldStVx _ => [.st]
  | .ldB _ => s.bytesAtI 3
  | .ldMemVx x => s.bytesAtI (x.toNat + 1)
  | .ldVxMem x => regsTo x

/-- The fault each instruction meets in a state, from the table of R165 and the conditions of R167, R168, R171, R172: each
instruction has at most one (R174). -/
def faultOf (s : State) : Instr → Option Fault
  | .call _ => if s.sp.val = 16 then some .stackOverflow else none
  | .ret => if s.sp.val = 0 then some .stackUnderflow else none
  | .drw _ _ n => if 1 ≤ n.toNat ∧ 4096 ≤ s.i.toNat + n.toNat - 1 then some .outOfBoundsMemory else none
  | .ldB _ => if 4096 ≤ s.i.toNat + 2 then some .outOfBoundsMemory else none
  | .ldMemVx x | .ldVxMem x => if 4096 ≤ s.i.toNat + x.toNat then some .outOfBoundsMemory else none
  | .skp x | .sknp x => if 15 < (s.reg x).toNat then some .keyIndexOutOfRange else none
  | .nop | .cls | .jp _ | .seImm _ _ | .sneImm _ _ | .seReg _ _ | .ldImm _ _ | .addImm _ _ | .ldReg _ _
  | .orReg _ _ | .andReg _ _ | .xorReg _ _ | .addReg _ _ | .sub _ _ | .shr _ _ | .subn _ _ | .shl _ _
  | .sneReg _ _ | .ldI _ | .jpV0 _ | .rnd _ _ | .ldVxDt _ | .ldVxK _ | .ldDtVx _ | .ldStVx _ | .addI _
  | .ldF _ => none

/-- The sprite bit drawn on display cell `k` by `n` rows at `base` with corner (`x0`, `y0`) (R136, R137), written as a
formula and not as a loop: some row and column of the sprite falls on `k` and is set. -/
def SpriteLights (m : Memory) (base : Nat) (x0 y0 : Byte) (n k : Nat) : Prop :=
  ∃ r c, r < n ∧ c < 8 ∧ k = (x0.toNat + c) % 64 + 64 * ((y0.toNat + r) % 32) ∧
    (m.read (base + r)).getLsbD (7 - c) = true

/-- Two states that differ, at most, in stack entries at and above `sp` (R19). -/
structure SameLive (s t : State) : Prop where
  rest : t = { s with stack := t.stack }
  live : ∀ k : Fin 16, k.val < s.sp.val → t.stack[k] = s.stack[k]

end Sys2Proof.Machine
end

