-- ==== Sys2Proof/Certificates/Slice0/Obligations.lean ====
section
/-! DEFINITION. The statements for the provers, from the spec's numbered rules. `exec` acts on a state whose `pc` fetch
has already advanced (R82); `tick` and `perform` are one host operation on a state; `step` performs the first operation of
the model's queue (log 3). A frame (`Frame s t parts`) says that nothing but the listed parts changed. -/

open Sys2Proof Sys2Proof.Machine

/-! ### Encoding -/

/-- Decoding the encoding of a well-formed instruction gives it back, with every operand at every value, alone and from
bytes (R61, R64, R66). -/
def Obligations.DecodeOfEncodeIsTheInstruction : Prop :=
  ∀ (i : Instr) (rest : List Byte), i.wellFormed = true →
    decodeWord (encode i) = some i ∧ decode (encodeBytes i ++ rest) = .ok (i, rest)

/-- No opcode bit is dropped by decoding: every legal opcode is the encoding of what it decodes to (R65, R66). -/
def Obligations.EncodeOfDecodeIsTheOpcode : Prop :=
  ∀ (op : Word) (i : Instr), decodeWord op = some i → encode i = op

/-- The decoder is the opcode map of R64: an opcode decodes to the instruction of the row whose mask and match accept it,
and to nothing where no row does. -/
def Obligations.DecoderAgreesWithTheOpcodeMap : Prop :=
  ∀ op : Word,
    (∀ i, decodeWord op = some i → ∃ r ∈ opcodeMap, r.mnemonic = i.mnemonic ∧ op &&& r.mask = r.matchBits) ∧
    (∀ r ∈ opcodeMap, op &&& r.mask = r.matchBits → ∃ i, decodeWord op = some i ∧ i.mnemonic = r.mnemonic)

/-- The 35 (match, mask) pairs are pairwise disjoint: no 16-bit value matches two rows (R65). -/
def Obligations.NoOpcodeMatchesTwoRows : Prop :=
  opcodeMap.length = 35 ∧
  ∀ op : Word, ∀ r ∈ opcodeMap, ∀ r' ∈ opcodeMap, op &&& r.mask = r.matchBits → op &&& r'.mask = r'.matchBits → r = r'

/-- The illegal opcodes are exactly those of the table of R67, written here on the numbers of the opcode. -/
def Obligations.IllegalOpcodesAreThoseOfTheTable : Prop :=
  ∀ op : Word, decodeWord op = none ↔
    (op.toNat / 4096 = 0x0 ∧ op.toNat % 4096 ∉ [0x000, 0x0E0, 0x0EE]) ∨
    (op.toNat / 4096 = 0x5 ∧ op.toNat % 16 ≠ 0) ∨
    (op.toNat / 4096 = 0x8 ∧ op.toNat % 16 ∈ [0x8, 0x9, 0xA, 0xB, 0xC, 0xD, 0xF]) ∨
    (op.toNat / 4096 = 0x9 ∧ op.toNat % 16 ≠ 0) ∨
    (op.toNat / 4096 = 0xE ∧ op.toNat % 256 ∉ [0x9E, 0xA1]) ∨
    (op.toNat / 4096 = 0xF ∧ op.toNat % 256 ∉ [0x07, 0x0A, 0x15, 0x18, 0x1E, 0x29, 0x33, 0x55, 0x65])

/-- Words written out from the encodings of R61 and R64 decode to the instructions they stand for, one of each format. -/
def Obligations.SampleWordsDecode : Prop :=
  decode [0x00#8, 0xE0#8] = .ok (.cls, []) ∧ decode [0x12#8, 0x34#8] = .ok (.jp 0x234#12, []) ∧
  decode [0x6A#8, 0xFF#8] = .ok (.ldImm 10#4 0xFF#8, []) ∧ decode [0x8A#8, 0xB4#8] = .ok (.addReg 10#4 11#4, []) ∧
  decode [0xD1#8, 0x2F#8] = .ok (.drw 1#4 2#4 15#4, []) ∧ decode [0xFF#8, 0x65#8] = .ok (.ldVxMem 15#4, []) ∧
  decode [0xE0#8, 0x00#8] = .error (.unknownOpcode 0xE000#16)

/-! ### The engine -/

/-- A step runs the decoded instruction: where the machine runs, the next operation is a tick (or none is queued), and
the two bytes at `pc` decode to a well-formed instruction, the step is `exec` of it on the state whose `pc` is advanced
by 2 and whose tick is taken from the queue (R80 to R84; the queue is the model's own, log 3). -/
def Obligations.StepRunsTheDecodedInstruction : Prop :=
  ∀ (s : State) (ops : List HostOp) (i : Instr), s.Running → s.pc.toNat < 4095 →
    (s.hostOps = .tick :: ops ∨ (s.hostOps = [] ∧ ops = [])) →
    decode [s.mem.read s.pc.toNat, s.mem.read (s.pc.toNat + 1)] = .ok (i, []) → i.wellFormed = true →
    step s = exec i { s with pc := s.pc + 2#16, hostOps := ops }

/-- A step performs the first operation the host has queued, on the state whose queue has moved on; with none queued it is
a tick; no operation touches the queue itself, and `reset` keeps the count of draws. The queue and the count are the
model's own choice (log 2, log 3), not the spec's. -/
def Obligations.StepPerformsTheNextOperation : Prop :=
  (∀ (s : State) (op : HostOp) (ops : List HostOp), s.hostOps = op :: ops →
    step s = perform op { s with hostOps := ops }) ∧
  (∀ s : State, s.hostOps = [] → step s = tick s) ∧
  (∀ (s t : State) (op : HostOp), perform op s = .next t → t.hostOps = s.hostOps) ∧
  (∀ s t : State, perform .reset s = .next t → t.draws = s.draws)

/-- `OutOfBoundsFetch`: a tick with `pc` at 4095 or more latches code 1 and changes nothing else; `pc` is not advanced
(R166). -/
def Obligations.FetchPastTheEndFaults : Prop :=
  ∀ s : State, s.Running → 4095 ≤ s.pc.toNat →
    ∃ t, tick s = .next t ∧ t = { s with fault := some .outOfBoundsFetch } ∧ t.faultCode = 1#3

/-- `UnknownOpcode`: a tick on an illegal opcode latches code 4; `pc` keeps the fetch advance and nothing else changes
(R169). -/
def Obligations.UnknownOpcodeFaults : Prop :=
  ∀ s : State, s.Running → s.pc.toNat < 4095 →
    decodeWord (s.mem.read s.pc.toNat ++ s.mem.read (s.pc.toNat + 1)) = none →
    ∃ t, tick s = .next t ∧ t = { s with pc := s.pc + 2#16, fault := some .unknownOpcode } ∧ t.faultCode = 4#3

/-- Halted: while a fault is latched every host operation but `reset` changes nothing, the result of `tick` and `load` is
`Err(fault)`, the fault code is its cause code, and `reset` works: it leaves a running machine (R186, R81). -/
def Obligations.HaltedMachineIsFrozen : Prop :=
  ∀ (s : State) (f : Fault), s.fault = some f →
    (∀ op, op ≠ .reset → perform op s = .next s) ∧ s.opResult = .error f ∧ s.faultCode = f.code ∧ s.faultCode ≠ 0#3 ∧
    ∃ t, perform .reset s = .next t ∧ t.Running

/-- Faults are precise (R85, R170): if an instruction of a running machine leaves a fault, then the state is the one
before it with the cause latched, and nothing else changed. -/
def Obligations.FaultingInstructionHasNoOtherEffect : Prop :=
  ∀ (i : Instr) (s t : State) (f : Fault), s.Running → exec i s = .next t → t.fault = some f →
    t = { s with fault := some f }

/-- Which instruction faults, and when: `StackOverflow` for 2nnn, `StackUnderflow` for 00EE, `OutOfBoundsMemory` for
Dxyn, Fx33, Fx55, Fx65, `KeyIndexOutOfRange` for Ex9E and ExA1, each exactly under its condition, and no other (R165,
R174). -/
def Obligations.InstructionsFaultExactlyAsTheTableSays : Prop :=
  ∀ (i : Instr) (s t : State), s.Running → exec i s = .next t → t.fault = faultOf s i

/-- Every step answers a next state, from every state: a tick of a running machine is always possible and always ends
(R89), a halted one answers with nothing changed (R81, R186), and a fatal condition only latches its cause (R170). That a
fatal condition is a NEXT state, so that the model's outcomes `fault` and `refused` are never answered, is the model's
choice (log 4), and so is the tick that an empty queue of host operations means (log 3). -/
def Obligations.EveryStepAnswersANextState : Prop :=
  (∀ (i : Instr) (s : State), ∃ t, exec i s = .next t) ∧ ∀ s : State, ∃ t, step s = .next t

/-- The frame of every instruction: what its rule does not name under "State written" is unchanged (R84), but for the
latch. This holds for all 35 and every part of the state: registers, `pc`, `i`, stack, timers, every byte of memory,
every display cell, keys, and the parameter `FONT` (R5). The model's own fields are parts too: no instruction changes the
host's queue (log 3), and only Cxnn changes the count of draws (log 2). -/
def Obligations.InstructionsWriteOnlyWhatTheirRuleNames : Prop :=
  ∀ (i : Instr) (s t : State), s.mem.wf = true → exec i s = .next t → Frame s t (.fault :: written s i)

/-! ### Control flow -/

/-- NOP, JP, JP V0 complete in every state: `pc` as the rule says, as numbers (the sum of Bnnn does not wrap and is not
cut to 12 bits), nothing else changed (R90, R92, R98). -/
def Obligations.NopAndJumpsSetPc : Prop :=
  ∀ (s : State) (nnn : Imm12),
    exec .nop s = .next s ∧
    (∃ t, exec (.jp nnn) s = .next t ∧ t.pc.toNat = nnn.toNat ∧ Frame s t [.pc]) ∧
    (∃ t, exec (.jpV0 nnn) s = .next t ∧ t.pc.toNat = (s.reg 0#4).toNat + nnn.toNat ∧ Frame s t [.pc])

/-- The four register skips complete in every state: 2 more on `pc` exactly when the condition holds, nothing else
changed (R94, R95, R96, R97). -/
def Obligations.RegisterSkipsAdvancePc : Prop :=
  ∀ (s : State) (x y : RegIdx) (nn : Byte),
    (∃ t, exec (.seImm x nn) s = .next t ∧ t.pc = (if s.reg x = nn then s.pc + 2#16 else s.pc) ∧ Frame s t [.pc]) ∧
    (∃ t, exec (.sneImm x nn) s = .next t ∧ t.pc = (if s.reg x ≠ nn then s.pc + 2#16 else s.pc) ∧ Frame s t [.pc]) ∧
    (∃ t, exec (.seReg x y) s = .next t ∧ t.pc = (if s.reg x = s.reg y then s.pc + 2#16 else s.pc) ∧
      Frame s t [.pc]) ∧
    (∃ t, exec (.sneReg x y) s = .next t ∧ t.pc = (if s.reg x ≠ s.reg y then s.pc + 2#16 else s.pc) ∧
      Frame s t [.pc])

/-- CALL below 16 entries: the advanced `pc` goes to `stack[sp]`, `sp` goes up by 1, `pc` becomes `nnn`, nothing else
changes; with `sp` = 16 it latches `StackOverflow`, code 2, and nothing else changes (R93, R167). -/
def Obligations.CallPushesOrOverflows : Prop :=
  ∀ (s : State) (nnn : Imm12),
    (∀ h : s.sp.val < 16, ∃ t, exec (.call nnn) s = .next t ∧ t.stack[s.sp.val] = s.pc ∧ t.sp.val = s.sp.val + 1 ∧
      t.pc.toNat = nnn.toNat ∧ Frame s t [.stackEntry ⟨s.sp.val, h⟩, .sp, .pc]) ∧
    (s.sp.val = 16 → ∃ t, exec (.call nnn) s = .next t ∧ t = { s with fault := some .stackOverflow } ∧
      t.faultCode = 2#3)

/-- RET with an entry held: `sp` goes down by 1 and `pc` becomes `stack[sp]`, which is not cleared; with `sp` = 0 it
latches `StackUnderflow`, code 3, and nothing else changes (R91, R168). -/
def Obligations.RetPopsOrUnderflows : Prop :=
  ∀ s : State,
    (∀ n, ∀ h : n < 16, s.sp.val = n + 1 → ∃ t, exec .ret s = .next t ∧ t.sp.val = n ∧ t.pc = s.stack[n] ∧
      Frame s t [.sp, .pc]) ∧
    (s.sp.val = 0 → ∃ t, exec .ret s = .next t ∧ t = { s with fault := some .stackUnderflow } ∧ t.faultCode = 3#3)

/-- A return undoes a call: whatever happens between them, if the stack is again as the call left it, `pc` comes back to
the address after the call and `sp` to its value before (R91, R93; the source's test S6). -/
def Obligations.ReturnComesBackToItsCall : Prop :=
  ∀ (s t u : State) (nnn : Imm12), s.sp.val < 16 → exec (.call nnn) s = .next t → u.sp = t.sp → u.stack = t.stack →
    ∃ w, exec .ret u = .next w ∧ w.pc = s.pc ∧ w.sp = s.sp ∧ Frame u w [.sp, .pc]

/-! ### ALU -/

/-- 6xnn and 8xy0 complete in every state: the register holds the immediate, the other register's value; nothing else
changes, `v[15]` included unless `x` = 15 (R101, R103). -/
def Obligations.LoadsSetTheRegister : Prop :=
  ∀ (s : State) (x y : RegIdx) (nn : Byte),
    (∃ t, exec (.ldImm x nn) s = .next t ∧ t.reg x = nn ∧ Frame s t [.reg x]) ∧
    (∃ t, exec (.ldReg x y) s = .next t ∧ t.reg x = s.reg y ∧ Frame s t [.reg x])

/-- 7xnn completes in every state: the sum modulo 256, no flag effect, nothing else changed (R102). -/
def Obligations.AddImmediateWrapsWithoutAFlag : Prop :=
  ∀ (s : State) (x : RegIdx) (nn : Byte), ∃ t, exec (.addImm x nn) s = .next t ∧
    (t.reg x).toNat = ((s.reg x).toNat + nn.toNat) % 256 ∧ Frame s t [.reg x]

/-- 8xy1, 8xy2, 8xy3 complete in every state, bit by bit; no flag, nothing else changed (R104, R105, R106). -/
def Obligations.LogicActsBitByBit : Prop :=
  ∀ (s : State) (x y : RegIdx),
    (∃ t, exec (.orReg x y) s = .next t ∧ Frame s t [.reg x] ∧
      ∀ b, (t.reg x).getLsbD b = ((s.reg x).getLsbD b || (s.reg y).getLsbD b)) ∧
    (∃ t, exec (.andReg x y) s = .next t ∧ Frame s t [.reg x] ∧
      ∀ b, (t.reg x).getLsbD b = ((s.reg x).getLsbD b && (s.reg y).getLsbD b)) ∧
    (∃ t, exec (.xorReg x y) s = .next t ∧ Frame s t [.reg x] ∧
      ∀ b, (t.reg x).getLsbD b = ((s.reg x).getLsbD b ^^ (s.reg y).getLsbD b))

/-- 8xy4 completes in every state: the sum modulo 256 in `v[x]` and then `v[15]` 1 if NO overflow occurred, else 0; with
`x` = 15 the flag replaces the sum; nothing else changes (R107). -/
def Obligations.AddSetsSumAndNoOverflowFlag : Prop :=
  ∀ (s : State) (x y : RegIdx), ∃ t, exec (.addReg x y) s = .next t ∧
    (x ≠ 15#4 → (t.reg x).toNat = ((s.reg x).toNat + (s.reg y).toNat) % 256) ∧
    (t.reg 15#4).toNat = (if (s.reg x).toNat + (s.reg y).toNat ≤ 255 then 1 else 0) ∧
    Frame s t [.reg x, .reg 15#4]

/-- 8xy5 completes in every state: the difference modulo 256 in `v[x]` and then `v[15]` 1 if NO borrow, else 0; with
`x` = 15 the flag replaces the difference; nothing else changes (R108). -/
def Obligations.SubSetsDifferenceAndNoBorrowFlag : Prop :=
  ∀ (s : State) (x y : RegIdx), ∃ t, exec (.sub x y) s = .next t ∧
    (x ≠ 15#4 → (t.reg x).toNat = ((s.reg x).toNat + 256 - (s.reg y).toNat) % 256) ∧
    (t.reg 15#4).toNat = (if (s.reg y).toNat ≤ (s.reg x).toNat then 1 else 0) ∧
    Frame s t [.reg x, .reg 15#4]

/-- 8xy7 completes in every state: `v[y] - v[x]` modulo 256 in `v[x]` and then `v[15]` 1 if NO borrow, else 0; with
`x` = 15 the flag replaces the difference; nothing else changes. The no-borrow condition `v[y] >= v[x]` is the spec's own
inference ("from rule R108 with the operands exchanged", R110). -/
def Obligations.SubnSetsDifferenceAndNoBorrowFlag : Prop :=
  ∀ (s : State) (x y : RegIdx), ∃ t, exec (.subn x y) s = .next t ∧
    (x ≠ 15#4 → (t.reg x).toNat = ((s.reg y).toNat + 256 - (s.reg x).toNat) % 256) ∧
    (t.reg 15#4).toNat = (if (s.reg x).toNat ≤ (s.reg y).toNat then 1 else 0) ∧
    Frame s t [.reg x, .reg 15#4]

/-- 8xy6 and 8xyE complete in every state: `v[x]` shifted by one, and then `v[15]` the bit shifted out; with `x` = 15 that
bit replaces the result; `y` makes no difference; nothing else changes (R109, R111). -/
def Obligations.ShiftsMoveOneBitIntoTheFlag : Prop :=
  ∀ (s : State) (x y y' : RegIdx),
    (∃ t, exec (.shr x y) s = .next t ∧ (x ≠ 15#4 → (t.reg x).toNat = (s.reg x).toNat / 2) ∧
      (t.reg 15#4).toNat = (s.reg x).toNat % 2 ∧ Frame s t [.reg x, .reg 15#4]) ∧
    (∃ t, exec (.shl x y) s = .next t ∧ (x ≠ 15#4 → (t.reg x).toNat = (s.reg x).toNat * 2 % 256) ∧
      (t.reg 15#4).toNat = (s.reg x).toNat / 128 ∧ Frame s t [.reg x, .reg 15#4]) ∧
    exec (.shr x y) s = exec (.shr x y') s ∧ exec (.shl x y) s = exec (.shl x y') s

/-- Cxnn completes in every state: `v[x]` is the next free byte ANDed with `nn`, one draw is consumed, nothing else
changes; so every bit clear in `nn` is clear in the result, and `nn` = 0xFF gives the draw itself (R112; the byte is a
free value, log 2, and the statement holds for every value of it). -/
def Obligations.RandomIsAFreeByteMasked : Prop :=
  ∀ (s : State) (x : RegIdx) (nn : Byte), ∃ t, exec (.rnd x nn) s = .next t ∧
    (∀ b, (t.reg x).getLsbD b = ((Config.rnd s.draws).getLsbD b && nn.getLsbD b)) ∧
    t.draws = s.draws + 1 ∧ (nn = 0xFF#8 → t.reg x = Config.rnd s.draws) ∧ Frame s t [.reg x, .draws]

/-- When an instruction writes `v[15]` as a flag it writes 0 or 1, never anything else: the six flag writers, unless the
draw faults (R12, R13). -/
def Obligations.FlagWritersWriteZeroOrOne : Prop :=
  ∀ (i : Instr) (s t : State) (x y : RegIdx) (n : Nibble),
    i ∈ [.addReg x y, .sub x y, .shr x y, .subn x y, .shl x y, .drw x y n] → faultOf s i = none →
    exec i s = .next t → t.reg 15#4 = 0#8 ∨ t.reg 15#4 = 1#8

/-- Every instruction but the six flag writers leaves `v[15]` unchanged unless its destination field `x` is 15; for Fx65
too only `x` = 15 makes the copy reach it (R13). -/
def Obligations.OnlySixInstructionsWriteTheFlag : Prop :=
  ∀ (i : Instr) (s t : State), exec i s = .next t → t.reg 15#4 ≠ s.reg 15#4 →
    (∃ x y, i = .addReg x y ∨ i = .sub x y ∨ i = .shr x y ∨ i = .subn x y ∨ i = .shl x y) ∨
    (∃ x y n, i = .drw x y n) ∨
    (∃ nn, i = .ldImm 15#4 nn ∨ i = .addImm 15#4 nn ∨ i = .rnd 15#4 nn) ∨
    (∃ y, i = .ldReg 15#4 y ∨ i = .orReg 15#4 y ∨ i = .andReg 15#4 y ∨ i = .xorReg 15#4 y) ∨
    i = .ldVxDt 15#4 ∨ i = .ldVxK 15#4 ∨ i = .ldVxMem 15#4

/-! ### Index register and memory -/

/-- Annn, Fx1E, Fx29 complete in every state: `i` as the rule says, as numbers (the sum wraps at 65536, the product is of
the whole byte); no flag, nothing else changed (R120, R121, R122). -/
def Obligations.IndexInstructionsSetI : Prop :=
  ∀ (s : State) (x : RegIdx) (nnn : Imm12),
    (∃ t, exec (.ldI nnn) s = .next t ∧ t.i.toNat = nnn.toNat ∧ Frame s t [.i]) ∧
    (∃ t, exec (.addI x) s = .next t ∧ t.i.toNat = (s.i.toNat + (s.reg x).toNat) % 65536 ∧ Frame s t [.i]) ∧
    (∃ t, exec (.ldF x) s = .next t ∧ t.i.toNat = (s.reg x).toNat * 5 ∧ Frame s t [.i])

/-- Fx33 with its three bytes in memory: hundreds, tens, ones at `i`, `i+1`, `i+2`; every other byte and all other state
unchanged. With `i + 2` at 4096 or above it latches `OutOfBoundsMemory`, code 5, and nothing else changes (R123). -/
def Obligations.BcdStoresThreeDigits : Prop :=
  ∀ (s : State) (x : RegIdx), s.mem.wf = true →
    (s.i.toNat + 2 < 4096 → ∃ t, exec (.ldB x) s = .next t ∧
      (t.mem.read (s.effAddr 0)).toNat = (s.reg x).toNat / 100 ∧
      (t.mem.read (s.effAddr 1)).toNat = (s.reg x).toNat / 10 % 10 ∧
      (t.mem.read (s.effAddr 2)).toNat = (s.reg x).toNat % 10 ∧
      Frame s t (s.bytesAtI 3)) ∧
    (4096 ≤ s.i.toNat + 2 → ∃ t, exec (.ldB x) s = .next t ∧ t = { s with fault := some .outOfBoundsMemory } ∧
      t.faultCode = 5#3)

/-- Fx55 with its bytes in memory: `v[0]` to `v[x]` at `i` to `i + x`; `i`, the registers, every other byte and all other
state unchanged. With `i + x` at 4096 or above it latches `OutOfBoundsMemory`, code 5, and nothing else changes (R124). -/
def Obligations.StoreCopiesRegistersToMemory : Prop :=
  ∀ (s : State) (x : RegIdx), s.mem.wf = true →
    (s.i.toNat + x.toNat < 4096 → ∃ t, exec (.ldMemVx x) s = .next t ∧
      (∀ r : RegIdx, r.toNat ≤ x.toNat → t.mem.read (s.effAddr r.toNat) = s.reg r) ∧
      Frame s t (s.bytesAtI (x.toNat + 1))) ∧
    (4096 ≤ s.i.toNat + x.toNat → ∃ t, exec (.ldMemVx x) s = .next t ∧
      t = { s with fault := some .outOfBoundsMemory } ∧ t.faultCode = 5#3)

/-- Fx65 with its bytes in memory: `v[0]` to `v[x]` from `i` to `i + x`; `i`, memory, the registers above `v[x]` and all
other state unchanged. With `i + x` at 4096 or above it latches `OutOfBoundsMemory`, code 5, and nothing else changes
(R125). -/
def Obligations.LoadCopiesMemoryToRegisters : Prop :=
  ∀ (s : State) (x : RegIdx),
    (s.i.toNat + x.toNat < 4096 → ∃ t, exec (.ldVxMem x) s = .next t ∧
      (∀ r : RegIdx, r.toNat ≤ x.toNat → t.reg r = s.mem.read (s.effAddr r.toNat)) ∧
      Frame s t (regsTo x)) ∧
    (4096 ≤ s.i.toNat + x.toNat → ∃ t, exec (.ldVxMem x) s = .next t ∧
      t = { s with fault := some .outOfBoundsMemory } ∧ t.faultCode = 5#3)

/-- `i` is written by exactly three instructions, Annn, Fx1E and Fx29 (R18). -/
def Obligations.OnlyThreeInstructionsWriteI : Prop :=
  ∀ (i : Instr) (s t : State), exec i s = .next t → t.i ≠ s.i →
    (∃ nnn, i = .ldI nnn) ∨ (∃ x, i = .addI x) ∨ (∃ x, i = .ldF x)

/-- A store is seen by the next fetch: after Fx55 that stores `v[0]`, `v[1]` at `pc`, fetch reads the opcode they form
(R52). -/
def Obligations.StoredCodeIsFetched : Prop :=
  ∀ (s t : State) (x : RegIdx), s.mem.wf = true → 1 ≤ x.toNat → s.i.toNat + x.toNat < 4096 → s.pc = s.i →
    exec (.ldMemVx x) s = .next t → t.fetch = .ok (s.reg 0#4 ++ s.reg 1#4, t.setPc (s.pc + 2#16))

/-! ### Display -/

/-- 00E0 completes in every state: all 2048 cells 0, nothing else changed, `v[15]` included (R135). -/
def Obligations.ClearBlanksTheDisplay : Prop :=
  ∀ s : State, ∃ t, exec .cls s = .next t ∧ (∀ k, k < 2048 → t.display.cell k = false) ∧
    Frame s t ((List.range 2048).map .cell)

/-- Dxyn with its bytes in memory: every cell is XORed with the sprite bit that falls on it, each pixel wrapped modulo 64
and 32; `v[15]` is 1 if some pixel was lit before and is unlit after, else 0; nothing else changes (R137). That the loop of the rule
equals the formula `SpriteLights`, in which every cell is computed from the display before the draw, is the spec's own
inference from no two pixels of a draw sharing a cell (R139). With its last byte at 4096 or above it latches
`OutOfBoundsMemory`, code 5, and nothing else changes (R137). -/
def Obligations.DrawXorsTheSpriteAndReportsCollision : Prop :=
  ∀ (s : State) (x y : RegIdx) (n : Nibble),
    ((n.toNat = 0 ∨ s.i.toNat + n.toNat - 1 < 4096) →
      ∃ t, exec (.drw x y n) s = .next t ∧
        (∀ k, k < 2048 →
          (t.display.cell k ≠ s.display.cell k ↔
            SpriteLights s.mem (s.effAddr 0) (s.reg x) (s.reg y) n.toNat k)) ∧
        ((∃ k, k < 2048 ∧ s.display.cell k = true ∧ t.display.cell k = false) → t.reg 15#4 = 1#8) ∧
        ((¬ ∃ k, k < 2048 ∧ s.display.cell k = true ∧ t.display.cell k = false) → t.reg 15#4 = 0#8) ∧
        Frame s t ((List.range 2048).map .cell ++ [.reg 15#4])) ∧
    (1 ≤ n.toNat → 4096 ≤ s.i.toNat + n.toNat - 1 →
      ∃ t, exec (.drw x y n) s = .next t ∧ t = { s with fault := some .outOfBoundsMemory } ∧ t.faultCode = 5#3)

/-- Drawing the same sprite twice at the same place restores the display; coordinates taken from registers other than
`v[15]`, which the first draw overwrites (R139). -/
def Obligations.DrawingTwiceRestoresTheDisplay : Prop :=
  ∀ (s t u : State) (x y : RegIdx) (n : Nibble), x ≠ 15#4 → y ≠ 15#4 →
    (n.toNat = 0 ∨ s.i.toNat + n.toNat - 1 < 4096) →
    exec (.drw x y n) s = .next t → exec (.drw x y n) t = .next u → u.display = s.display

/-- The display is written only by 00E0 and Dxyn, memory only by Fx33 and Fx55, the stack only by 2nnn and 00EE, `dt` only
by Fx15, `st` only by Fx18; no instruction writes the keys (R19, R25, R26, R41, R178). Nor does one write the host's
queue, which is the model's own field (log 3). -/
def Obligations.EachDeviceHasItsOwnInstructions : Prop :=
  ∀ (i : Instr) (s t : State), exec i s = .next t →
    (t.display ≠ s.display → i = .cls ∨ ∃ x y n, i = .drw x y n) ∧
    (t.mem ≠ s.mem → (∃ x, i = .ldB x) ∨ ∃ x, i = .ldMemVx x) ∧
    (t.stack ≠ s.stack → ∃ nnn, i = .call nnn) ∧
    (t.sp ≠ s.sp → (∃ nnn, i = .call nnn) ∨ i = .ret) ∧
    (t.dt ≠ s.dt → ∃ x, i = .ldDtVx x) ∧
    (t.st ≠ s.st → ∃ x, i = .ldStVx x) ∧
    t.keys = s.keys ∧ t.hostOps = s.hostOps

/-! ### Keypad and timers -/

/-- Ex9E and ExA1 with a key code 0 to 15 in `v[x]`: 2 more on `pc` exactly when the key is pressed, not pressed; with a
code above 15 they latch `KeyIndexOutOfRange`, code 6, and nothing else changes (R150, R151, R172). -/
def Obligations.KeySkipsLookAtTheKey : Prop :=
  ∀ (s : State) (x k : RegIdx),
    ((s.reg x).toNat = k.toNat →
      (∃ t, exec (.skp x) s = .next t ∧ t.pc = (if s.key k = true then s.pc + 2#16 else s.pc) ∧ Frame s t [.pc]) ∧
      (∃ t, exec (.sknp x) s = .next t ∧ t.pc = (if s.key k = false then s.pc + 2#16 else s.pc) ∧ Frame s t [.pc])) ∧
    (15 < (s.reg x).toNat →
      exec (.skp x) s = .next { s with fault := some .keyIndexOutOfRange } ∧
      exec (.sknp x) s = .next { s with fault := some .keyIndexOutOfRange }) ∧
    ({ s with fault := some .keyIndexOutOfRange } : State).faultCode = 6#3

/-- Fx0A completes in every state: the smallest pressed key's code goes to `v[x]`; with no key pressed `pc` goes back by
2; nothing else changes (R152). -/
def Obligations.WaitKeyTakesTheLowestKeyOrRewinds : Prop :=
  ∀ (s : State) (x : RegIdx),
    (∀ k : RegIdx, s.key k = true → (∀ j : RegIdx, j.toNat < k.toNat → s.key j = false) →
      ∃ t, exec (.ldVxK x) s = .next t ∧ (t.reg x).toNat = k.toNat ∧ Frame s t [.reg x]) ∧
    ((∀ k : RegIdx, s.key k = false) →
      ∃ t, exec (.ldVxK x) s = .next t ∧ t.pc = s.pc - 2#16 ∧ Frame s t [.pc])

/-- A whole tick on Fx0A with no key pressed changes nothing (R152: the rewind undoes the fetch). -/
def Obligations.WaitingTickChangesNothing : Prop :=
  ∀ (s : State) (x : RegIdx), s.Running → s.pc.toNat < 4095 →
    decodeWord (s.mem.read s.pc.toNat ++ s.mem.read (s.pc.toNat + 1)) = some (.ldVxK x) →
    (∀ k : RegIdx, s.key k = false) → tick s = .next s

/-- Fx07, Fx15, Fx18 complete in every state: `v[x] <- dt`, `dt <- v[x]`, `st <- v[x]`, nothing else changed (R153, R154,
R155). -/
def Obligations.TimerInstructionsMoveTheTimers : Prop :=
  ∀ (s : State) (x : RegIdx),
    (∃ t, exec (.ldVxDt x) s = .next t ∧ t.reg x = s.dt ∧ Frame s t [.reg x]) ∧
    (∃ t, exec (.ldDtVx x) s = .next t ∧ t.dt = s.reg x ∧ Frame s t [.dt]) ∧
    (∃ t, exec (.ldStVx x) s = .next t ∧ t.st = s.reg x ∧ Frame s t [.st])

/-- No instruction reads `st`: two states that differ in `st` alone execute every instruction alike, and differ in `st`
alone after it (not even that after Fx18) (R23). -/
def Obligations.SoundTimerIsNeverRead : Prop :=
  ∀ (i : Instr) (s t : State) (b : Byte), exec i s = .next t →
    (∀ x, i = .ldStVx x → exec i { s with st := b } = .next t) ∧
    ((∀ x, i ≠ .ldStVx x) → exec i { s with st := b } = .next { t with st := b })

/-! ### Host operations -/

/-- `tick_timers` on a running machine: each timer down by 1, or still 0; nothing else changes. Halted: nothing changes
(R177). -/
def Obligations.TickTimersCountsDown : Prop :=
  ∀ s : State,
    (s.Running → ∃ t, perform .tickTimers s = .next t ∧ t.dt.toNat = s.dt.toNat - 1 ∧ t.st.toNat = s.st.toNat - 1 ∧
      Frame s t [.dt, .st]) ∧
    (¬ s.Running → perform .tickTimers s = .next s)

/-- `key_pressed(k, p)` on a running machine: key `k` has level `p`; nothing else changes. Halted: nothing changes
(R183). -/
def Obligations.KeyPressedSetsOneLevel : Prop :=
  ∀ (s : State) (k : RegIdx) (p : Bool),
    (s.Running → ∃ t, perform (.keyPressed k p) s = .next t ∧ t.key k = p ∧ Frame s t [.key k]) ∧
    (¬ s.Running → perform (.keyPressed k p) s = .next s)

/-- `load(bytes)` of at most 3584 bytes on a running machine: byte `k` at 0x200 + `k`, every other byte and all other
state unchanged, result `Ok`; of more, `LoadOverflow`, code 7, is latched and nothing else changes. Halted: nothing
changes and the result is the latched fault (R199, R173). -/
def Obligations.LoadCopiesOrOverflows : Prop :=
  ∀ (s : State) (bytes : List Byte), s.mem.wf = true →
    (s.Running → bytes.length ≤ 3584 → ∃ t, perform (.load bytes) s = .next t ∧
      (∀ (k : Nat) (h : k < bytes.length), t.mem.read (0x200 + k) = bytes[k]) ∧ t.opResult = .ok () ∧
      Frame s t ((List.range bytes.length).map fun k => .byte (0x200 + k))) ∧
    (s.Running → 3584 < bytes.length → ∃ t, perform (.load bytes) s = .next t ∧
      t = { s with fault := some .loadOverflow } ∧ t.opResult = .error .loadOverflow ∧ t.faultCode = 7#3) ∧
    (∀ f, s.fault = some f → perform (.load bytes) s = .next s ∧ s.opResult = .error f)

/-- `reset()` in every state, halted or not: `pc` 0x200, registers, `i`, `sp`, stack, timers, display and keys 0, memory
`FONT` at 0 to 79 and 0 elsewhere, `fault` 0; and no other operation clears `fault` (R197). `FONT` is the parameter of R5,
`s.mem.font`: the statement holds for every value of it. -/
def Obligations.ResetRestoresTheResetState : Prop :=
  (∀ s : State, ∃ t, perform .reset s = .next t ∧
    t.pc = 0x200#16 ∧ (∀ r, t.reg r = 0#8) ∧ t.i = 0#16 ∧ t.sp.val = 0 ∧ (∀ k : Fin 16, t.stack[k] = 0#16) ∧
    t.dt = 0#8 ∧ t.st = 0#8 ∧ (∀ a, ∀ h : a < 80, t.mem.read a = s.mem.font[a]) ∧
    (∀ a, 80 ≤ a → a < 4096 → t.mem.read a = 0#8) ∧ (∀ k, k < 2048 → t.display.cell k = false) ∧
    (∀ k, t.key k = false) ∧ t.faultCode = 0#3) ∧
  ∀ (s t : State) (op : HostOp), op ≠ .reset → ¬ s.Running → perform op s = .next t → t.fault = s.fault

/-- `get_display()` changes nothing, halted or not, and the cell read at column `x`, row `y` is `display[x + 64*y]` (R182,
R24). -/
def Obligations.ReadingTheDisplayChangesNothing : Prop :=
  ∀ (s : State) (x y : Nat), x < 64 → y < 32 →
    perform .getDisplay s = .next s ∧ s.pixel x y = s.display.cell (x + 64 * y)

/-! ### Reset and the whole machine -/

/-- The state after reset, for every value of the parameter `FONT` (R5, D11): `pc` 0x200, every register, `i`, `sp`, stack
entry, timer, display cell 0, memory `FONT` then 0, running (R31). The key levels at 0 are the spec's own inference there
(log 10). `State.reset` is this state for some `FONT`; which, the default of R44, is the model's choice (log 1). -/
def Obligations.ResetStateIsAsTheSpecSays : Prop :=
  (∃ font, State.reset = State.resetWith font) ∧
  ∀ (font : Font) (r : State), r = State.resetWith font →
    r.pc = 0x200#16 ∧ (∀ x, r.reg x = 0#8) ∧ r.i = 0#16 ∧ r.sp.val = 0 ∧ (∀ k : Fin 16, r.stack[k] = 0#16) ∧
    r.dt = 0#8 ∧ r.st = 0#8 ∧ (∀ a, ∀ h : a < 80, r.mem.read a = font[a]) ∧
    (∀ a, 80 ≤ a → a < 4096 → r.mem.read a = 0#8) ∧ (∀ k, k < 2048 → r.display.cell k = false) ∧
    (∀ k, r.key k = false) ∧ r.faultCode = 0#3

/-- The invariant holds at reset, and at the reset of a build with any other `FONT` (R16, R33). -/
def Obligations.ResetMeetsTheInvariant : Prop := State.reset.Inv ∧ ∀ font, (State.resetWith font).Inv

/-- Every step keeps the invariant, whatever the host does: memory canonical, `pc` at most 4350, stack entries at most
4096 (R16, R33). -/
def Obligations.StepKeepsTheInvariant : Prop :=
  ∀ s t : State, s.Inv → step s = .next t → t.Inv

/-- The fixed points of `tick` on a running machine: exactly 1nnn to its own address, Bnnn whose sum is its own address,
and Fx0A with no key pressed. R201 marks this as its own inference: "every other instruction leaves pc changed or changes
sp". -/
def Obligations.TickFixedPointsAreThree : Prop :=
  ∀ s : State, s.Running →
    (tick s = .next s ↔ s.pc.toNat < 4095 ∧
      ((∃ nnn : Imm12, decodeWord (s.mem.read s.pc.toNat ++ s.mem.read (s.pc.toNat + 1)) = some (.jp nnn) ∧
          nnn.toNat = s.pc.toNat) ∨
       (∃ nnn : Imm12, decodeWord (s.mem.read s.pc.toNat ++ s.mem.read (s.pc.toNat + 1)) = some (.jpV0 nnn) ∧
          (s.reg 0#4).toNat + nnn.toNat = s.pc.toNat) ∨
       (∃ x, decodeWord (s.mem.read s.pc.toNat ++ s.mem.read (s.pc.toNat + 1)) = some (.ldVxK x) ∧
          ∀ k, s.key k = false)))

/-- Stack entries at and above `sp` never affect an execution: two states that differ in them alone step to states that
differ in them alone (R19). -/
def Obligations.DeadStackEntriesNeverMatter : Prop :=
  ∀ s t s' : State, SameLive s t → step s = .next s' → ∃ t', step t = .next t' ∧ SameLive s' t'

/-- The parameter `FONT` is fixed: no step writes it, whatever the instruction or host operation (R5: "no configuration
register"; that it is an argument of the model is D11, and that memory carries it is the model's choice, log 1). -/
def Obligations.NoStepWritesTheFontParameter : Prop :=
  ∀ s t : State, step s = .next t → t.mem.font = s.mem.font
end

