-- ==== Sys2Proof/Laws/Decode.lean ====
section
/-! SUPPORT. The fields of an opcode: taking nibbles and bytes apart and putting them together (R61). -/

namespace Sys2Proof

@[simp] theorem Word.n1_ofNibbles (a b c d : Nibble) : Word.n1 (Word.ofNibbles a b c d) = a := by
  apply BitVec.eq_of_getLsbD_eq
  intro k hk
  simp only [Word.n1, Word.ofNibbles, BitVec.getLsbD_extractLsb', BitVec.getLsbD_append]
  interval_cases k <;> simp

@[simp] theorem Word.n2_ofNibbles (a b c d : Nibble) : Word.n2 (Word.ofNibbles a b c d) = b := by
  apply BitVec.eq_of_getLsbD_eq
  intro k hk
  simp only [Word.n2, Word.ofNibbles, BitVec.getLsbD_extractLsb', BitVec.getLsbD_append]
  interval_cases k <;> simp

@[simp] theorem Word.n3_ofNibbles (a b c d : Nibble) : Word.n3 (Word.ofNibbles a b c d) = c := by
  apply BitVec.eq_of_getLsbD_eq
  intro k hk
  simp only [Word.n3, Word.ofNibbles, BitVec.getLsbD_extractLsb', BitVec.getLsbD_append]
  interval_cases k <;> simp

@[simp] theorem Word.n4_ofNibbles (a b c d : Nibble) : Word.n4 (Word.ofNibbles a b c d) = d := by
  apply BitVec.eq_of_getLsbD_eq
  intro k hk
  simp only [Word.n4, Word.ofNibbles, BitVec.getLsbD_extractLsb', BitVec.getLsbD_append]
  interval_cases k <;> simp

/-- An opcode is its four nibbles. -/
theorem Word.ofNibbles_nibbles (op : Word) : Word.ofNibbles op.n1 op.n2 op.n3 op.n4 = op := by
  apply BitVec.eq_of_getLsbD_eq
  intro k hk
  simp only [Word.n1, Word.n2, Word.n3, Word.n4, Word.ofNibbles, BitVec.getLsbD_extractLsb', BitVec.getLsbD_append]
  interval_cases k <;> simp

/-- Decoding an opcode given by its nibbles. -/
@[simp] theorem decodeWord_ofNibbles (a b c d : Nibble) :
    decodeWord (Word.ofNibbles a b c d) = decodeNibbles a b c d := by
  simp [decodeWord]

/-- A byte is its two nibbles. -/
@[simp] theorem Byte.nibbles_append (b : Byte) : (Byte.hiNibble b ++ Byte.loNibble b : BitVec 8) = b := by
  apply BitVec.eq_of_getLsbD_eq
  intro k hk
  simp only [Byte.hiNibble, Byte.loNibble, BitVec.getLsbD_extractLsb', BitVec.getLsbD_append]
  interval_cases k <;> simp

/-- The nibbles of two joined nibbles. -/
@[simp] theorem Byte.hiNibble_append (a b : Nibble) : Byte.hiNibble (a ++ b) = a := by
  apply BitVec.eq_of_getLsbD_eq
  intro k hk
  simp only [Byte.hiNibble, BitVec.getLsbD_extractLsb', BitVec.getLsbD_append]
  interval_cases k <;> simp

@[simp] theorem Byte.loNibble_append (a b : Nibble) : Byte.loNibble (a ++ b) = b := by
  apply BitVec.eq_of_getLsbD_eq
  intro k hk
  simp only [Byte.loNibble, BitVec.getLsbD_extractLsb', BitVec.getLsbD_append]
  interval_cases k <;> simp

/-- A 12-bit immediate is its three nibbles. -/
@[simp] theorem Imm12.nibbles_append (m : Imm12) :
    (m.extractLsb' 8 4 ++ m.extractLsb' 4 4 ++ m.extractLsb' 0 4 : BitVec 12) = m := by
  apply BitVec.eq_of_getLsbD_eq
  intro k hk
  simp only [BitVec.getLsbD_extractLsb', BitVec.getLsbD_append]
  interval_cases k <;> simp

/-- An opcode is its two bytes, the more significant first (R45). -/
theorem Word.bytes_append (op : Word) : (op.extractLsb' 8 8 ++ op.extractLsb' 0 8 : BitVec 16) = op := by
  apply BitVec.eq_of_getLsbD_eq
  intro k hk
  simp only [BitVec.getLsbD_extractLsb', BitVec.getLsbD_append]
  interval_cases k <;> simp

/-- Decoding the bytes of an opcode is decoding the opcode (R45, R60). -/
theorem decode_bytes (op : Word) (rest : List Byte) :
    decode (op.bytes ++ rest) =
      match decodeWord op with
      | some i => .ok (i, rest)
      | none => .error (.unknownOpcode op) := by
  cases h : decodeWord op <;> simp [Word.bytes, decode, Word.bytes_append, h]

end Sys2Proof
end

