-- ==== Sys2Proof/Laws/HostOps.lean ====
section
/-! SUPPORT. What each host operation that runs no instruction does, running and halted, said once. -/

namespace Sys2Proof.Machine

/-- A timer goes down by 1 and stops at 0 (R177). -/
theorem countDown_toNat (t : Byte) : (countDown t).toNat = t.toNat - 1 := by
  unfold countDown
  split
  · simp_all
  · rename_i h
    have h0 : t.toNat ≠ 0 := fun e => h (BitVec.eq_of_toNat_eq e)
    have := t.isLt
    rw [BitVec.toNat_sub]
    simp
    omega

theorem State.tickTimers_running {s : State} (h : s.fault = none) :
    s.tickTimers = (s.setDt (countDown s.dt)).setSt (countDown s.st) := by
  simp [State.tickTimers, h]

theorem State.tickTimers_halted {s : State} (h : s.fault ≠ none) : s.tickTimers = s := by
  unfold State.tickTimers
  split <;> simp_all

theorem State.keyPressed_running {s : State} (h : s.fault = none) (k : RegIdx) (p : Bool) :
    s.keyPressed k p = s.setKey k p := by
  simp [State.keyPressed, h]

theorem State.keyPressed_halted {s : State} (h : s.fault ≠ none) (k : RegIdx) (p : Bool) :
    s.keyPressed k p = s := by
  unfold State.keyPressed
  split <;> simp_all

theorem loadProgram_fits {s : State} (h : s.fault = none) {bytes : List Byte} (hl : bytes.length ≤ 3584) :
    loadProgram bytes s = .next (s.setMem (s.mem.writeBytes 0x200 bytes)) := by
  simp [loadProgram, h, Nat.not_lt.mpr hl]

theorem loadProgram_overflows {s : State} (h : s.fault = none) {bytes : List Byte} (hl : 3584 < bytes.length) :
    loadProgram bytes s = .next (s.latch .loadOverflow) := by
  simp [loadProgram, h, hl, raise]

theorem loadProgram_halted {s : State} (h : s.fault ≠ none) (bytes : List Byte) : loadProgram bytes s = .next s := by
  unfold loadProgram
  split <;> simp_all

end Sys2Proof.Machine
end

