-- ==== Sys2Proof/Laws/Memory.lean ====
section
/-! SUPPORT. The laws of memory: a read after a write, and that every memory operation keeps the canonical form. -/

namespace Sys2Proof.Machine

/-- The canonical form holds from every smaller lower bound. -/
theorem wfCells_mono {font : Font} {lo lo' : Nat} (h : lo' ≤ lo) {m : List Host.Cell} (hm : wfCells font lo m) :
    wfCells font lo' m := by
  cases m with
  | nil => rfl
  | cons p m =>
    simp only [wfCells, Bool.and_eq_true, decide_eq_true_eq] at hm ⊢
    exact ⟨⟨⟨h.trans hm.1.1.1, hm.1.1.2⟩, hm.1.2⟩, hm.2⟩

/-- An address below the lower bound is not listed. -/
theorem readCells_below {font : Font} {lo : Nat} {m : List Host.Cell} (hm : wfCells font lo m) {a : Nat} (h : a < lo) :
    readCells font m a = unlisted font a := by
  induction m generalizing lo with
  | nil => rfl
  | cons p m ih =>
    obtain ⟨a', b'⟩ := p
    simp only [wfCells, Bool.and_eq_true, decide_eq_true_eq] at hm
    have : a' ≠ a := by omega
    simp only [readCells, this, if_false]
    exact ih hm.2 (by omega)

theorem putCells_wf {font : Font} {lo : Nat} {m : List Host.Cell} (hm : wfCells font lo m) {a : Nat} (b : Byte) (hlo : lo ≤ a)
    (ha : a < 4096) : wfCells font lo (putCells font m a b) := by
  induction m generalizing lo with
  | nil => simp only [putCells]; split <;> simp_all [wfCells]
  | cons p m ih =>
    obtain ⟨a', b'⟩ := p
    have hm' := hm
    simp only [wfCells, Bool.and_eq_true, decide_eq_true_eq] at hm
    simp only [putCells]
    by_cases h1 : a < a'
    · simp only [h1, if_true]
      split
      · exact hm'
      · rename_i hb
        simp only [wfCells, Bool.and_eq_true, decide_eq_true_eq]
        exact ⟨⟨⟨hlo, ha⟩, hb⟩, ⟨⟨h1, hm.1.1.2⟩, hm.1.2⟩, hm.2⟩
    · by_cases h2 : a = a'
      · subst h2
        simp only [lt_irrefl, if_false, if_true]
        split
        · exact wfCells_mono (by omega) hm.2
        · rename_i hb
          simp only [wfCells, Bool.and_eq_true, decide_eq_true_eq]
          exact ⟨⟨⟨hlo, ha⟩, hb⟩, hm.2⟩
      · simp only [h1, h2, if_false, wfCells, Bool.and_eq_true, decide_eq_true_eq]
        exact ⟨⟨⟨hm.1.1.1, hm.1.1.2⟩, hm.1.2⟩, ih hm.2 (by omega)⟩

theorem readCells_putCells {font : Font} {lo : Nat} {m : List Host.Cell} (hm : wfCells font lo m) (a a' : Nat) (b : Byte) :
    readCells font (putCells font m a b) a' = if a' = a then b else readCells font m a' := by
  induction m generalizing lo with
  | nil =>
    simp only [putCells, readCells]
    split <;> rename_i hb <;> by_cases h : a' = a <;> simp_all [readCells]
    omega
  | cons p m ih =>
    obtain ⟨c, b'⟩ := p
    have hm' := hm
    simp only [wfCells, Bool.and_eq_true, decide_eq_true_eq] at hm
    simp only [putCells]
    by_cases h1 : a < c
    · simp only [h1, if_true]
      have hr : readCells font ((c, b') :: m) a = unlisted font a :=
        readCells_below (lo := c) (m := (c, b') :: m)
          (by simp only [wfCells, Bool.and_eq_true, decide_eq_true_eq]; exact ⟨⟨⟨le_refl c, hm.1.1.2⟩, hm.1.2⟩, hm.2⟩) h1
      split
      · rename_i hb
        by_cases h : a' = a
        · subst h; simp [hr, hb]
        · simp [h]
      · by_cases h : a' = a
        · subst h; simp [readCells]
        · have : a ≠ a' := fun e => h e.symm
          simp [readCells, h, this]
    · by_cases h2 : a = c
      · subst h2
        simp only [lt_irrefl, if_false, if_true]
        split
        · rename_i hb
          by_cases h : a' = a
          · subst h; simp [hb, readCells_below hm.2 (Nat.lt_succ_self _)]
          · have : a ≠ a' := fun e => h e.symm
            simp [readCells, h, this]
        · by_cases h : a' = a
          · subst h; simp [readCells]
          · have : a ≠ a' := fun e => h e.symm
            simp [readCells, h, this]
      · simp only [h1, h2, if_false, readCells, ih hm.2]
        by_cases h3 : c = a'
        · have : a' ≠ a := by omega
          simp [h3, this]
        · simp [h3]

/-- A write keeps the canonical form. -/
theorem Memory.write_wf {m : Memory} (hm : m.wf) (a : Nat) (b : Byte) : (m.write a b).wf := by
  unfold Memory.write
  split
  · exact putCells_wf hm b (Nat.zero_le a) ‹_›
  · exact hm

/-- A read after a write: the byte written at its address, every other address untouched (R49). -/
theorem Memory.read_write {m : Memory} (hm : m.wf) {a : Nat} (ha : a < 4096) (b : Byte) (a' : Nat) :
    (m.write a b).read a' = if a' = a then b else m.read a' := by
  simp only [Memory.write, ha, if_true]
  exact readCells_putCells hm a a' b

/-- A block write keeps the canonical form. -/
theorem Memory.writeBytes_wf {m : Memory} (hm : m.wf) (a : Nat) (bs : List Byte) : (m.writeBytes a bs).wf := by
  induction bs generalizing m a with
  | nil => exact hm
  | cons b bs ih => exact ih (Memory.write_wf hm a b) (a + 1)

/-- A read after a block write that lies in memory: the block's bytes at its addresses, every other address untouched. -/
theorem Memory.read_writeBytes {m : Memory} (hm : m.wf) {a : Nat} {bs : List Byte} (ha : a + bs.length ≤ 4096)
    (a' : Nat) :
    (m.writeBytes a bs).read a' =
      if a ≤ a' ∧ a' < a + bs.length then bs.getD (a' - a) 0#8 else m.read a' := by
  induction bs generalizing m a with
  | nil =>
    have : ¬ (a ≤ a' ∧ a' < a + 0) := by omega
    simp only [Memory.writeBytes, List.length_nil, this, if_false]
  | cons b bs ih =>
    simp only [List.length_cons] at ha ⊢
    simp only [Memory.writeBytes]
    rw [ih (Memory.write_wf hm a b) (by omega), Memory.read_write hm (by omega)]
    by_cases h : a' = a
    · subst h
      have h1 : ¬ (a' + 1 ≤ a' ∧ a' < a' + 1 + bs.length) := by omega
      have h2 : a' ≤ a' ∧ a' < a' + (bs.length + 1) := by omega
      rw [if_neg h1, if_pos h2]
      simp
    · by_cases h1 : a + 1 ≤ a' ∧ a' < a + 1 + bs.length
      · have h2 : a ≤ a' ∧ a' < a + (bs.length + 1) := by omega
        have h3 : a' - a = (a' - (a + 1)) + 1 := by omega
        rw [if_pos h1, if_pos h2, h3]
        simp
      · have h2 : ¬ (a ≤ a' ∧ a' < a + (bs.length + 1)) := by omega
        rw [if_neg h1, if_neg h2, if_neg h]

@[simp] theorem Memory.readBytes_length (m : Memory) (a n : Nat) : (m.readBytes a n).length = n := by
  induction n generalizing a with
  | zero => rfl
  | succ n ih => simp [Memory.readBytes, ih]

theorem Memory.readBytes_getD (m : Memory) (a : Nat) {n k : Nat} (h : k < n) :
    (m.readBytes a n).getD k 0#8 = m.read (a + k) := by
  induction n generalizing a k with
  | zero => omega
  | succ n ih =>
    cases k with
    | zero => simp [Memory.readBytes]
    | succ k =>
      have := ih (a + 1) (k := k) (by omega)
      simp only [Memory.readBytes, List.getD_cons_succ]
      rw [this]
      congr 1
      omega

/-- Memory with nothing listed, the memory of reset, is in canonical form, whatever `FONT` is. -/
theorem Memory.wf_nil (font : Font) : Memory.wf { font := font, cells := [] } := rfl

/-- Memory with nothing listed reads as the reset contents. -/
@[simp] theorem Memory.read_nil (font : Font) (a : Nat) :
    Memory.read { font := font, cells := [] } a = unlisted font a := rfl

/-- No write changes the parameter `FONT` (R5). -/
@[simp] theorem Memory.write_font (m : Memory) (a : Nat) (b : Byte) : (m.write a b).font = m.font := by
  unfold Memory.write
  split <;> rfl

@[simp] theorem Memory.writeBytes_font (m : Memory) (a : Nat) (bs : List Byte) :
    (m.writeBytes a bs).font = m.font := by
  induction bs generalizing m a with
  | nil => rfl
  | cons b bs ih => simp [Memory.writeBytes, ih]

end Sys2Proof.Machine
end

