-- ==== Sys2Proof/Laws/Ops.lean ====
section
/-! SUPPORT. What each shared operation can do, said once: the provers cite these and unfold nothing. -/

namespace Sys2Proof.Machine

/-! ### Faults and checks -/

@[simp] theorem attempt_ok {α : Type} (s : State) (a : α) (go : α → State) :
    attempt s (.ok a) go = .next (go a) := rfl

@[simp] theorem attempt_error {α : Type} (s : State) (f : Fault) (go : α → State) :
    attempt s (.error f) go = .next (s.latch f) := rfl

/-- An attempt always answers a next state: the fault latched and nothing else changed, or what the check allows. -/
theorem attempt_cases {α : Type} {s t : State} {check : Except Fault α} {go : α → State}
    (h : attempt s check go = .next t) :
    (∃ f, check = .error f ∧ t = s.latch f) ∨ (∃ a, check = .ok a ∧ t = go a) := by
  cases check with
  | error f => exact .inl ⟨f, rfl, by simpa using h.symm⟩
  | ok a => exact .inr ⟨a, rfl, by simpa using h.symm⟩

/-- `push` below 16 entries (R20). -/
theorem State.push_ok (s : State) (a : Word) (h : s.sp.val < 16) :
    s.push a = .ok { s with stack := s.stack.set s.sp.val a h, sp := ⟨s.sp.val + 1, Nat.succ_lt_succ h⟩ } := by
  simp [State.push, h]

/-- `push` on a full stack (R20). -/
theorem State.push_full (s : State) (a : Word) (h : s.sp.val = 16) : s.push a = .error .stackOverflow := by
  simp [State.push, h]

/-- `pop` of an empty stack (R21). -/
theorem State.pop_empty (s : State) (h : s.sp.val = 0) : s.pop = .error .stackUnderflow := by
  have : s.sp = ⟨0, by omega⟩ := Fin.ext h
  unfold State.pop
  rw [this]

/-- `pop` of a stack of `n + 1` entries (R21). -/
theorem State.pop_ok (s : State) (n : Nat) (hn : n < 16) (h : s.sp.val = n + 1) :
    s.pop = .ok (s.stack[n], { s with sp := ⟨n, by omega⟩ }) := by
  have : s.sp = ⟨n + 1, by omega⟩ := Fin.ext h
  unfold State.pop
  rw [this]

/-- The bounds check, decided (R48). -/
theorem State.checkAccess_ok (s : State) (k : Nat) (h : k = 0 ∨ s.i.toNat + k ≤ 4096) :
    s.checkAccess k = .ok () := by
  have : ¬ (1 ≤ k ∧ 4096 ≤ s.effAddr (k - 1)) := by unfold State.effAddr; omega
  simp [State.checkAccess, this]

theorem State.checkAccess_error (s : State) (k : Nat) (hk : 1 ≤ k) (h : 4096 ≤ s.i.toNat + k - 1) :
    s.checkAccess k = .error .outOfBoundsMemory := by
  have : 1 ≤ k ∧ 4096 ≤ s.effAddr (k - 1) := by unfold State.effAddr; omega
  simp [State.checkAccess, this]

@[simp] theorem State.effAddr_zero (s : State) : s.effAddr 0 = s.i.toNat := rfl

/-- The key operand, decided (R150). -/
theorem State.keyOperand_ok (s : State) (x : RegIdx) (h : (s.reg x).toNat ≤ 15) :
    s.keyOperand x = .ok ((s.reg x).setWidth 4) := by
  simp [State.keyOperand, Nat.not_lt.mpr h]

theorem State.keyOperand_error (s : State) (x : RegIdx) (h : 15 < (s.reg x).toNat) :
    s.keyOperand x = .error .keyIndexOutOfRange := by
  simp [State.keyOperand, h]

/-- Fetch, decided (R46). -/
theorem State.fetch_ok (s : State) (h : s.pc.toNat < 4095) :
    s.fetch = .ok (s.mem.read s.pc.toNat ++ s.mem.read (s.pc.toNat + 1), s.setPc (s.pc + 2#16)) := by
  simp [State.fetch, Nat.not_le.mpr h, State.opcodeAt]

theorem State.fetch_error (s : State) (h : 4095 ≤ s.pc.toNat) : s.fetch = .error .outOfBoundsFetch := by
  simp [State.fetch, h]

/-! ### Operands -/

@[simp] theorem zextImm_toNat (nnn : Imm12) : (zextImm nnn).toNat = nnn.toNat := by
  simp [zextImm]; omega

@[simp] theorem zextByte_toNat (b : Byte) : (zextByte b).toNat = b.toNat := by
  simp [zextByte]; omega

@[simp] theorem bcdDigits_length (a : Byte) : (bcdDigits a).length = 3 := rfl

@[simp] theorem State.regsUpTo_length (s : State) (x : RegIdx) : (s.regsUpTo x).length = x.toNat + 1 := by
  have := x.isLt
  simp [State.regsUpTo]
  omega

theorem State.regsUpTo_getD (s : State) (x r : RegIdx) (h : r.toNat ≤ x.toNat) :
    (s.regsUpTo x).getD r.toNat 0#8 = s.reg r := by
  have hr : r.toNat < 16 := r.isLt
  have : r.toNat < x.toNat + 1 := by omega
  simp [State.regsUpTo, State.reg, List.getD_eq_getElem?_getD, this, hr]

/-! ### Flags -/

theorem flagByte_toNat (c : Bool) : (flagByte c).toNat = if c then 1 else 0 := by cases c <;> rfl

theorem flagByte_zero_or_one (c : Bool) : flagByte c = 0#8 ∨ flagByte c = 1#8 := by cases c <;> simp [flagByte]

/-! ### Registers from memory -/

/-- `loadRegs` writes register `k + j` with byte `j` and leaves every other register (R125). -/
theorem loadRegs_getElem (v : Vector Byte 16) (k : Nat) (bs : List Byte) (r : Nat) (hr : r < 16) :
    (loadRegs v k bs)[r] = if k ≤ r ∧ r < k + bs.length then bs.getD (r - k) 0#8 else v[r] := by
  induction bs generalizing v k with
  | nil =>
    have : ¬ (k ≤ r ∧ r < k + 0) := by omega
    simp only [loadRegs, List.length_nil, this, if_false]
  | cons b bs ih =>
    simp only [loadRegs, List.length_cons]
    rw [ih, Vector.getElem_setIfInBounds]
    by_cases h : r = k
    · subst h
      have h1 : ¬ (r + 1 ≤ r ∧ r < r + 1 + bs.length) := by omega
      have h2 : r ≤ r ∧ r < r + (bs.length + 1) := by omega
      rw [if_neg h1, if_pos h2]
      simp
    · have h' : ¬ k = r := fun e => h e.symm
      by_cases h1 : k + 1 ≤ r ∧ r < k + 1 + bs.length
      · have h2 : k ≤ r ∧ r < k + (bs.length + 1) := by omega
        have h3 : r - k = (r - (k + 1)) + 1 := by omega
        rw [if_pos h1, if_pos h2, h3]
        simp
      · have h2 : ¬ (k ≤ r ∧ r < k + (bs.length + 1)) := by omega
        rw [if_neg h1, if_neg h2, if_neg h']

/-! ### The key scan -/

theorem scanKeys_eq_none (k : Nat) (ps : List Bool) : scanKeys k ps = none ↔ ∀ p ∈ ps, p = false := by
  induction ps generalizing k with
  | nil => simp [scanKeys]
  | cons p ps ih => cases p <;> simp [scanKeys, ih]

/-- The scan finds the first pressed key: it is pressed, and none before it is (R152). -/
theorem scanKeys_eq_some (k j : Nat) (ps : List Bool) :
    scanKeys k ps = some j ↔ k ≤ j ∧ ps.getD (j - k) false = true ∧ ∀ m, m < j - k → ps.getD m false = false := by
  induction ps generalizing k with
  | nil => simp [scanKeys]
  | cons p ps ih =>
    cases p with
    | true =>
      simp only [scanKeys, if_true, Option.some.injEq]
      constructor
      · rintro rfl
        simp
      · rintro ⟨h1, -, h3⟩
        by_contra hne
        have := h3 0 (by omega)
        simp at this
    | false =>
      simp only [scanKeys, Bool.false_eq_true, if_false, ih]
      constructor
      · rintro ⟨h1, h2, h3⟩
        have e : j - k = (j - (k + 1)) + 1 := by omega
        refine ⟨by omega, by rw [e]; simpa using h2, ?_⟩
        intro m hm
        cases m with
        | zero => simp
        | succ m => simpa using h3 m (by omega)
      · rintro ⟨h1, h2, h3⟩
        have hne : j ≠ k := by
          rintro rfl
          simp at h2
        have e : j - k = (j - (k + 1)) + 1 := by omega
        rw [e] at h2 h3
        refine ⟨by omega, by simpa using h2, ?_⟩
        intro m hm
        simpa using h3 (m + 1) (by omega)

/-! ### Display cells -/

/-- XOR of a bit into cell `k` changes that cell only (R137). -/
theorem Display.cell_xorCell (d : Display) {k j : Nat} (hk : k < 2048) (hj : j < 2048) (bit : Bool) :
    (d.xorCell k bit).cell j = (d.cell j ^^ (bit && decide (j = k))) := by
  have h1 : k / 64 < 32 := by omega
  have h2 : j / 64 < 32 := by omega
  simp only [Display.cell, Display.xorCell, h1, h2, dite_true, Vector.getElem_set]
  by_cases h : k / 64 = j / 64
  · cases bit with
    | false => simp [h]
    | true =>
      have e : (j % 64 = k % 64) ↔ j = k := by omega
      simp [h, e, Nat.mod_lt]
  · have : j ≠ k := by rintro rfl; exact h rfl
    simp [h, this]

/-- Every cell of the cleared display is 0 (R135). -/
@[simp] theorem Display.cell_blank (j : Nat) : Display.blank.cell j = false := by
  simp [Display.cell, Display.blank]

/-- Two displays with the same 2048 cells are the same. -/
theorem Display.ext_cell (d e : Display) (h : ∀ k, k < 2048 → d.cell k = e.cell k) : d = e := by
  apply Vector.ext
  intro r hr
  apply BitVec.eq_of_getLsbD_eq
  intro c hc
  have := h (64 * r + c) (by omega)
  have h1 : (64 * r + c) / 64 = r := by omega
  have h2 : (64 * r + c) % 64 = c := by omega
  simpa [Display.cell, h1, h2, hr] using this

/-- Every cell a sprite touches is on the display (R138). -/
theorem spriteCell_lt (x0 y0 : Byte) (r c : Nat) : spriteCell x0 y0 r c < 2048 := by
  unfold spriteCell
  omega

end Sys2Proof.Machine
end

