-- ==== Sys2Proof/Laws/PerInstr.lean ====
section
/-! SUPPORT. Statements about every instruction, made per instruction. `RowMatch`: the word an instruction encodes to
matches the row of the opcode map that bears its name, and no register, key or other number of it misses its field. -/

namespace Sys2Proof.Laws.RowMatch

/-- The instruction's encoding is accepted by a row of R64 of its own name, and its operand numbers fit (R61, R64). -/
def Statement (i : Instr) : Prop :=
  i.wellFormed = true ∧ ∃ r ∈ opcodeMap, r.mnemonic = i.mnemonic ∧ r.accepts (encode i) = true

/-- Masking an opcode masks its nibbles. -/
theorem ofNibbles_and (a b c d a' b' c' d' : Nibble) :
    Word.ofNibbles a b c d &&& Word.ofNibbles a' b' c' d' =
      Word.ofNibbles (a &&& a') (b &&& b') (c &&& c') (d &&& d') := by
  apply BitVec.eq_of_getLsbD_eq
  intro k hk
  simp only [Word.ofNibbles, BitVec.getLsbD_and, BitVec.getLsbD_append]
  interval_cases k <;> simp

/-- The mask of format NNN and XNN accepts any operand. -/
theorem accepts_top (s : String) (a b c d : Nibble) :
    (OpcodeRow.mk s (Word.ofNibbles a 0#4 0#4 0#4) (Word.ofNibbles 0xF#4 0#4 0#4 0#4)).accepts
      (Word.ofNibbles a b c d) = true := by
  have h : a &&& 0xF#4 = a := BitVec.and_allOnes
  simp [OpcodeRow.accepts, ofNibbles_and, h]

/-- The mask of format XY accepts any registers. -/
theorem accepts_xy (s : String) (a b c d : Nibble) :
    (OpcodeRow.mk s (Word.ofNibbles a 0#4 0#4 d) (Word.ofNibbles 0xF#4 0#4 0#4 0xF#4)).accepts
      (Word.ofNibbles a b c d) = true := by
  have h : ∀ n : Nibble, n &&& 0xF#4 = n := fun n => BitVec.and_allOnes
  simp [OpcodeRow.accepts, ofNibbles_and, h]

/-- The mask of format X accepts any register. -/
theorem accepts_x (s : String) (a b c d : Nibble) :
    (OpcodeRow.mk s (Word.ofNibbles a 0#4 c d) (Word.ofNibbles 0xF#4 0#4 0xF#4 0xF#4)).accepts
      (Word.ofNibbles a b c d) = true := by
  have h : ∀ n : Nibble, n &&& 0xF#4 = n := fun n => BitVec.and_allOnes
  simp [OpcodeRow.accepts, ofNibbles_and, h]

/-- The operand numbers of every instruction fit their fields: the field types say so (R61, R63). -/
theorem wellFormed_all (i : Instr) : i.wellFormed = true := by
  cases i <;>
    simp only [Instr.wellFormed, Instr.operandNumbers, OperandNumbers.wellFormed, Bool.and_eq_true] <;>
    refine ⟨⟨⟨⟨?_, ?_⟩, ?_⟩, ?_⟩, ?_⟩ <;> first | rfl | exact decide_eq_true (BitVec.isLt _)

theorem nop : Statement (.nop) :=
  ⟨wellFormed_all _,
   ⟨"NOP", 0x0000#16, 0xFFFF#16⟩, by decide, rfl, rfl⟩

theorem cls : Statement (.cls) :=
  ⟨wellFormed_all _,
   ⟨"CLS", 0x00E0#16, 0xFFFF#16⟩, by decide, rfl, rfl⟩

theorem ret : Statement (.ret) :=
  ⟨wellFormed_all _,
   ⟨"RET", 0x00EE#16, 0xFFFF#16⟩, by decide, rfl, rfl⟩

theorem jp (nnn : Imm12) : Statement (.jp nnn) :=
  ⟨wellFormed_all _,
   ⟨"JP", 0x1000#16, 0xF000#16⟩, by decide, rfl, accepts_top "JP" _ _ _ _⟩

theorem call (nnn : Imm12) : Statement (.call nnn) :=
  ⟨wellFormed_all _,
   ⟨"CALL", 0x2000#16, 0xF000#16⟩, by decide, rfl, accepts_top "CALL" _ _ _ _⟩

theorem seImm (x : RegIdx) (nn : Byte) : Statement (.seImm x nn) :=
  ⟨wellFormed_all _,
   ⟨"SE_IMM", 0x3000#16, 0xF000#16⟩, by decide, rfl, accepts_top "SE_IMM" _ _ _ _⟩

theorem sneImm (x : RegIdx) (nn : Byte) : Statement (.sneImm x nn) :=
  ⟨wellFormed_all _,
   ⟨"SNE_IMM", 0x4000#16, 0xF000#16⟩, by decide, rfl, accepts_top "SNE_IMM" _ _ _ _⟩

theorem seReg (x y : RegIdx) : Statement (.seReg x y) :=
  ⟨wellFormed_all _,
   ⟨"SE_REG", 0x5000#16, 0xF00F#16⟩, by decide, rfl, accepts_xy "SE_REG" _ _ _ _⟩

theorem ldImm (x : RegIdx) (nn : Byte) : Statement (.ldImm x nn) :=
  ⟨wellFormed_all _,
   ⟨"LD_IMM", 0x6000#16, 0xF000#16⟩, by decide, rfl, accepts_top "LD_IMM" _ _ _ _⟩

theorem addImm (x : RegIdx) (nn : Byte) : Statement (.addImm x nn) :=
  ⟨wellFormed_all _,
   ⟨"ADD_IMM", 0x7000#16, 0xF000#16⟩, by decide, rfl, accepts_top "ADD_IMM" _ _ _ _⟩

theorem ldReg (x y : RegIdx) : Statement (.ldReg x y) :=
  ⟨wellFormed_all _,
   ⟨"LD_REG", 0x8000#16, 0xF00F#16⟩, by decide, rfl, accepts_xy "LD_REG" _ _ _ _⟩

theorem orReg (x y : RegIdx) : Statement (.orReg x y) :=
  ⟨wellFormed_all _,
   ⟨"OR", 0x8001#16, 0xF00F#16⟩, by decide, rfl, accepts_xy "OR" _ _ _ _⟩

theorem andReg (x y : RegIdx) : Statement (.andReg x y) :=
  ⟨wellFormed_all _,
   ⟨"AND", 0x8002#16, 0xF00F#16⟩, by decide, rfl, accepts_xy "AND" _ _ _ _⟩

theorem xorReg (x y : RegIdx) : Statement (.xorReg x y) :=
  ⟨wellFormed_all _,
   ⟨"XOR", 0x8003#16, 0xF00F#16⟩, by decide, rfl, accepts_xy "XOR" _ _ _ _⟩

theorem addReg (x y : RegIdx) : Statement (.addReg x y) :=
  ⟨wellFormed_all _,
   ⟨"ADD_REG", 0x8004#16, 0xF00F#16⟩, by decide, rfl, accepts_xy "ADD_REG" _ _ _ _⟩

theorem sub (x y : RegIdx) : Statement (.sub x y) :=
  ⟨wellFormed_all _,
   ⟨"SUB", 0x8005#16, 0xF00F#16⟩, by decide, rfl, accepts_xy "SUB" _ _ _ _⟩

theorem shr (x y : RegIdx) : Statement (.shr x y) :=
  ⟨wellFormed_all _,
   ⟨"SHR", 0x8006#16, 0xF00F#16⟩, by decide, rfl, accepts_xy "SHR" _ _ _ _⟩

theorem subn (x y : RegIdx) : Statement (.subn x y) :=
  ⟨wellFormed_all _,
   ⟨"SUBN", 0x8007#16, 0xF00F#16⟩, by decide, rfl, accepts_xy "SUBN" _ _ _ _⟩

theorem shl (x y : RegIdx) : Statement (.shl x y) :=
  ⟨wellFormed_all _,
   ⟨"SHL", 0x800E#16, 0xF00F#16⟩, by decide, rfl, accepts_xy "SHL" _ _ _ _⟩

theorem sneReg (x y : RegIdx) : Statement (.sneReg x y) :=
  ⟨wellFormed_all _,
   ⟨"SNE_REG", 0x9000#16, 0xF00F#16⟩, by decide, rfl, accepts_xy "SNE_REG" _ _ _ _⟩

theorem ldI (nnn : Imm12) : Statement (.ldI nnn) :=
  ⟨wellFormed_all _,
   ⟨"LD_I", 0xA000#16, 0xF000#16⟩, by decide, rfl, accepts_top "LD_I" _ _ _ _⟩

theorem jpV0 (nnn : Imm12) : Statement (.jpV0 nnn) :=
  ⟨wellFormed_all _,
   ⟨"JP_V0", 0xB000#16, 0xF000#16⟩, by decide, rfl, accepts_top "JP_V0" _ _ _ _⟩

theorem rnd (x : RegIdx) (nn : Byte) : Statement (.rnd x nn) :=
  ⟨wellFormed_all _,
   ⟨"RND", 0xC000#16, 0xF000#16⟩, by decide, rfl, accepts_top "RND" _ _ _ _⟩

theorem drw (x y : RegIdx) (n : Nibble) : Statement (.drw x y n) :=
  ⟨wellFormed_all _,
   ⟨"DRW", 0xD000#16, 0xF000#16⟩, by decide, rfl, accepts_top "DRW" _ _ _ _⟩

theorem skp (x : RegIdx) : Statement (.skp x) :=
  ⟨wellFormed_all _,
   ⟨"SKP", 0xE09E#16, 0xF0FF#16⟩, by decide, rfl, accepts_x "SKP" _ _ _ _⟩

theorem sknp (x : RegIdx) : Statement (.sknp x) :=
  ⟨wellFormed_all _,
   ⟨"SKNP", 0xE0A1#16, 0xF0FF#16⟩, by decide, rfl, accepts_x "SKNP" _ _ _ _⟩

theorem ldVxDt (x : RegIdx) : Statement (.ldVxDt x) :=
  ⟨wellFormed_all _,
   ⟨"LD_VX_DT", 0xF007#16, 0xF0FF#16⟩, by decide, rfl, accepts_x "LD_VX_DT" _ _ _ _⟩

theorem ldVxK (x : RegIdx) : Statement (.ldVxK x) :=
  ⟨wellFormed_all _,
   ⟨"LD_VX_K", 0xF00A#16, 0xF0FF#16⟩, by decide, rfl, accepts_x "LD_VX_K" _ _ _ _⟩

theorem ldDtVx (x : RegIdx) : Statement (.ldDtVx x) :=
  ⟨wellFormed_all _,
   ⟨"LD_DT_VX", 0xF015#16, 0xF0FF#16⟩, by decide, rfl, accepts_x "LD_DT_VX" _ _ _ _⟩

theorem ldStVx (x : RegIdx) : Statement (.ldStVx x) :=
  ⟨wellFormed_all _,
   ⟨"LD_ST_VX", 0xF018#16, 0xF0FF#16⟩, by decide, rfl, accepts_x "LD_ST_VX" _ _ _ _⟩

theorem addI (x : RegIdx) : Statement (.addI x) :=
  ⟨wellFormed_all _,
   ⟨"ADD_I", 0xF01E#16, 0xF0FF#16⟩, by decide, rfl, accepts_x "ADD_I" _ _ _ _⟩

theorem ldF (x : RegIdx) : Statement (.ldF x) :=
  ⟨wellFormed_all _,
   ⟨"LD_F", 0xF029#16, 0xF0FF#16⟩, by decide, rfl, accepts_x "LD_F" _ _ _ _⟩

theorem ldB (x : RegIdx) : Statement (.ldB x) :=
  ⟨wellFormed_all _,
   ⟨"LD_B", 0xF033#16, 0xF0FF#16⟩, by decide, rfl, accepts_x "LD_B" _ _ _ _⟩

theorem ldMemVx (x : RegIdx) : Statement (.ldMemVx x) :=
  ⟨wellFormed_all _,
   ⟨"LD_MEM_VX", 0xF055#16, 0xF0FF#16⟩, by decide, rfl, accepts_x "LD_MEM_VX" _ _ _ _⟩

theorem ldVxMem (x : RegIdx) : Statement (.ldVxMem x) :=
  ⟨wellFormed_all _,
   ⟨"LD_VX_MEM", 0xF065#16, 0xF0FF#16⟩, by decide, rfl, accepts_x "LD_VX_MEM" _ _ _ _⟩

end Sys2Proof.Laws.RowMatch
end

