-- ==== Sys2Proof/Laws/Step.lean ====
section
/-! SUPPORT. What a step can do, said once. -/

namespace Sys2Proof.Machine

/-- A tick of a running machine takes one of three ways: the fetch fails, the decode fails, or the decoded instruction
runs on the state whose `pc` fetch has advanced (R80 to R84). -/
theorem tick_running {s : State} (h : s.fault = none) :
    (4095 ≤ s.pc.toNat ∧ tick s = .next (s.latch .outOfBoundsFetch)) ∨
    (s.pc.toNat < 4095 ∧ decodeWord (s.mem.read s.pc.toNat ++ s.mem.read (s.pc.toNat + 1)) = none ∧
      tick s = .next ((s.setPc (s.pc + 2#16)).latch .unknownOpcode)) ∨
    (∃ i, s.pc.toNat < 4095 ∧ decodeWord (s.mem.read s.pc.toNat ++ s.mem.read (s.pc.toNat + 1)) = some i ∧
      tick s = exec i (s.setPc (s.pc + 2#16))) := by
  by_cases hpc : s.pc.toNat < 4095
  · right
    cases hd : decodeWord (s.mem.read s.pc.toNat ++ s.mem.read (s.pc.toNat + 1)) with
    | none => left; simp [tick, h, State.fetch_ok s hpc, hd, hpc, raise]
    | some i => right; exact ⟨i, hpc, rfl, by simp [tick, h, State.fetch_ok s hpc, hd]⟩
  · left
    have : 4095 ≤ s.pc.toNat := by omega
    exact ⟨this, by simp [tick, h, State.fetch_error s this, raise]⟩

theorem tick_halted {s : State} {f : Fault} (h : s.fault = some f) : tick s = .next s := by
  simp [tick, h]

@[simp] theorem step_nil {s : State} (h : s.hostOps = []) : step s = tick s := by
  simp [step, h]

@[simp] theorem step_cons (s : State) (op : HostOp) (ops : List HostOp) :
    step { s with hostOps := op :: ops } = perform op { s with hostOps := ops } := rfl

theorem step_of_cons {s : State} {op : HostOp} {ops : List HostOp} (h : s.hostOps = op :: ops) :
    step s = perform op { s with hostOps := ops } := by
  simp [step, h]

end Sys2Proof.Machine
end

