-- ==== Sys2Proof/Tests/Slice0.lean ====
section
/-! SUPPORT. The model's own tests. The expected values are those of spec/95_test_vectors.md (the vector's name stands in
each comment) or are read off the bit patterns of spec/30_encoding.md; none comes from the model. The last section shows,
for each statement with hypotheses, concrete states and operands that meet all of them, at the boundary of each clause. -/

namespace Sys2Proof.Tests

open Sys2Proof Sys2Proof.Machine

/-! ### Helpers -/

/-- The reset state with some registers set. -/
def withRegs (l : List (RegIdx × Byte)) : State := l.foldl (fun s p => s.setReg p.1 p.2) State.reset

/-- A state with some bytes stored from an address on. -/
def withBytes (a : Nat) (bytes : List Byte) (s : State) : State := s.setMem (s.mem.writeBytes a bytes)

/-- A state with some display cells lit. -/
def withLit (l : List Nat) (s : State) : State := l.foldl (fun s k => s.setDisplay (s.display.xorCell k true)) s

/-- A state whose next host operation is this one. -/
def withOp (op : HostOp) (s : State) : State := { s with hostOps := [op] }

/-- What `f` reads in the state an outcome answers, if it answers one. -/
def seen {α : Type} (f : State → α) : Result → Option α
  | .next t => some (f t)
  | _ => none

/-- What `f` reads after one step on the opcode `op`. -/
def after {α : Type} (op : Nat) (s : State) (f : State → α) : Option α := seen f (step (s.withFetchWord 16 op))

/-- What `f` reads after the step of one host operation. -/
def afterOp {α : Type} (op : HostOp) (s : State) (f : State → α) : Option α := seen f (step (withOp op s))

/-- The lit cells among some cells. -/
def litAmong (l : List Nat) (s : State) : List Nat := l.filter s.display.cell

/-! ### Well-formedness: each check refuses (R61, R70) -/

theorem test_wellFormed_accepts : OperandNumbers.wellFormed { x := 15, y := 15, n := 15, nn := 255, nnn := 4095 } = true := by
  decide
theorem test_wellFormed_refuses_x : OperandNumbers.wellFormed { x := 16 } = false := by decide
theorem test_wellFormed_refuses_y : OperandNumbers.wellFormed { y := 16 } = false := by decide
theorem test_wellFormed_refuses_n : OperandNumbers.wellFormed { n := 16 } = false := by decide
theorem test_wellFormed_refuses_nn : OperandNumbers.wellFormed { nn := 256 } = false := by decide
theorem test_wellFormed_refuses_nnn : OperandNumbers.wellFormed { nnn := 4096 } = false := by decide

/-! ### Decoding: one word for every constructor, written bit by bit from R61 and R64 -/

theorem test_decode_nop : decodeWord 0b0000_0000_0000_0000#16 = some .nop := by decide
theorem test_decode_cls : decodeWord 0b0000_0000_1110_0000#16 = some .cls := by decide
theorem test_decode_ret : decodeWord 0b0000_0000_1110_1110#16 = some .ret := by decide
theorem test_decode_jp : decodeWord 0b0001_0010_0011_0100#16 = some (.jp 0x234#12) := by decide
theorem test_decode_call : decodeWord 0b0010_1010_1011_1100#16 = some (.call 0xABC#12) := by decide
theorem test_decode_seImm : decodeWord 0b0011_0110_1001_0001#16 = some (.seImm 6#4 0x91#8) := by decide
theorem test_decode_sneImm : decodeWord 0b0100_1101_0000_0001#16 = some (.sneImm 13#4 0x01#8) := by decide
theorem test_decode_seReg : decodeWord 0b0101_0001_1000_0000#16 = some (.seReg 1#4 8#4) := by decide
theorem test_decode_ldImm : decodeWord 0b0110_1010_1111_1111#16 = some (.ldImm 10#4 0xFF#8) := by decide
theorem test_decode_addImm : decodeWord 0b0111_0011_0000_1010#16 = some (.addImm 3#4 0x0A#8) := by decide
theorem test_decode_ldReg : decodeWord 0b1000_0001_0010_0000#16 = some (.ldReg 1#4 2#4) := by decide
theorem test_decode_orReg : decodeWord 0b1000_0111_1110_0001#16 = some (.orReg 7#4 14#4) := by decide
theorem test_decode_andReg : decodeWord 0b1000_0100_1001_0010#16 = some (.andReg 4#4 9#4) := by decide
theorem test_decode_xorReg : decodeWord 0b1000_1000_0001_0011#16 = some (.xorReg 8#4 1#4) := by decide
theorem test_decode_addReg : decodeWord 0b1000_1010_1011_0100#16 = some (.addReg 10#4 11#4) := by decide
theorem test_decode_sub : decodeWord 0b1000_0001_0010_0101#16 = some (.sub 1#4 2#4) := by decide
theorem test_decode_shr : decodeWord 0b1000_1010_1011_0110#16 = some (.shr 10#4 11#4) := by decide
theorem test_decode_subn : decodeWord 0b1000_0010_0001_0111#16 = some (.subn 2#4 1#4) := by decide
theorem test_decode_shl : decodeWord 0b1000_1111_0010_1110#16 = some (.shl 15#4 2#4) := by decide
theorem test_decode_sneReg : decodeWord 0b1001_0011_0100_0000#16 = some (.sneReg 3#4 4#4) := by decide
theorem test_decode_ldI : decodeWord 0b1010_1111_1110_0001#16 = some (.ldI 0xFE1#12) := by decide
theorem test_decode_jpV0 : decodeWord 0b1011_0010_1111_1111#16 = some (.jpV0 0x2FF#12) := by decide
theorem test_decode_rnd : decodeWord 0b1100_0001_1111_0000#16 = some (.rnd 1#4 0xF0#8) := by decide
theorem test_decode_drw : decodeWord 0b1101_0001_0010_1111#16 = some (.drw 1#4 2#4 15#4) := by decide
theorem test_decode_skp : decodeWord 0b1110_0101_1001_1110#16 = some (.skp 5#4) := by decide
theorem test_decode_sknp : decodeWord 0b1110_0101_1010_0001#16 = some (.sknp 5#4) := by decide
theorem test_decode_ldVxDt : decodeWord 0b1111_0010_0000_0111#16 = some (.ldVxDt 2#4) := by decide
theorem test_decode_ldVxK : decodeWord 0b1111_0011_0000_1010#16 = some (.ldVxK 3#4) := by decide
theorem test_decode_ldDtVx : decodeWord 0b1111_0100_0001_0101#16 = some (.ldDtVx 4#4) := by decide
theorem test_decode_ldStVx : decodeWord 0b1111_0110_0001_1000#16 = some (.ldStVx 6#4) := by decide
theorem test_decode_addI : decodeWord 0b1111_0111_0001_1110#16 = some (.addI 7#4) := by decide
theorem test_decode_ldF : decodeWord 0b1111_1000_0010_1001#16 = some (.ldF 8#4) := by decide
theorem test_decode_ldB : decodeWord 0b1111_1001_0011_0011#16 = some (.ldB 9#4) := by decide
theorem test_decode_ldMemVx : decodeWord 0b1111_1010_0101_0101#16 = some (.ldMemVx 10#4) := by decide
theorem test_decode_ldVxMem : decodeWord 0b1111_1111_0110_0101#16 = some (.ldVxMem 15#4) := by decide

/-- The illegal values listed under "Encoding and decode". -/
theorem test_decode_illegal :
    [0x0001#16, 0x00E1#16, 0x00EF#16, 0x0123#16, 0x0FFF#16, 0x5001#16, 0x5AB1#16, 0x8AB8#16, 0x8AB9#16, 0x8ABA#16,
     0x8ABD#16, 0x8ABF#16, 0x9AB1#16, 0xE09F#16, 0xE000#16, 0xE0FF#16, 0xF000#16, 0xF00B#16, 0xF01F#16, 0xF056#16,
     0xF0FF#16].all (fun op => decodeWord op == none) = true := by decide

/-- One byte is no instruction (R60). -/
theorem test_decode_truncated : decode [0x00#8] = .error .truncated := by decide

/-- Byte order (R45): memory bytes D1 2F are the opcode 0xD12F. -/
theorem test_decode_bigEndian : decode [0xD1#8, 0x2F#8, 0x00#8] = .ok (.drw 1#4 2#4 15#4, [0x00#8]) := by decide

/-- Encoding writes the words back. -/
theorem test_encode_words :
    encode (.drw 1#4 2#4 15#4) = 0xD12F#16 ∧ encode (.shr 10#4 11#4) = 0x8AB6#16 ∧ encode (.ldVxMem 15#4) = 0xFF65#16 ∧
    encode (.jp 0x234#12) = 0x1234#16 ∧ encode (.ldImm 10#4 0xFF#8) = 0x6AFF#16 := by decide

/-! ### Control flow: one step -/

/-- A1. -/
theorem test_nop : after 0x0000 State.reset (fun t => (t.pc, t.fault)) = some (0x202#16, none) := by decide
/-- A2. -/
theorem test_illegal_faults :
    after 0x0001 State.reset (fun t => (t.pc, t.faultCode)) = some (0x202#16, 4#3) := by decide
/-- A3. -/
theorem test_ret_underflow :
    after 0x00EE State.reset (fun t => (t.pc, t.sp, t.faultCode)) = some (0x202#16, 0, 3#3) := by decide
/-- A4. -/
theorem test_ret_pops :
    after 0x00EE { State.reset with sp := 2, stack := (State.reset.stack.set 0 0x0ABC#16).set 1 0x0345#16 }
      (fun t => (t.pc, t.sp, t.stack[0], t.stack[1])) = some (0x345#16, 1, 0x0ABC#16, 0x0345#16) := by decide
/-- A5. -/
theorem test_jp : after 0x1FFF State.reset (fun t => (t.pc, t.fault)) = some (0xFFF#16, none) := by decide
/-- A8. -/
theorem test_call_overflow :
    after 0x2ABC { State.reset with sp := 16, stack := State.reset.stack.set 15 0x0777#16 }
      (fun t => (t.pc, t.sp, t.stack[15], t.faultCode)) = some (0x202#16, 16, 0x0777#16, 2#3) := by decide
/-- A9. -/
theorem test_call_last_entry :
    after 0x2ABC { State.reset with sp := 15 } (fun t => (t.pc, t.sp, t.stack[15], t.fault)) =
      some (0xABC#16, 16, 0x0202#16, none) := by decide
/-- A10. -/
theorem test_seImm : after 0x3F01 (withRegs [(15#4, 1#8)]) (·.pc) = some 0x204#16 := by decide
/-- A11. -/
theorem test_sneImm : after 0x4F01 (withRegs [(15#4, 1#8)]) (·.pc) = some 0x202#16 := by decide
/-- A12. -/
theorem test_seReg : after 0x5330 (withRegs [(3#4, 9#8)]) (·.pc) = some 0x204#16 := by decide
/-- A14, A15. -/
theorem test_sneReg_same : after 0x9330 (withRegs [(3#4, 9#8)]) (·.pc) = some 0x202#16 := by decide
theorem test_sneReg : after 0x9340 (withRegs [(3#4, 9#8)]) (·.pc) = some 0x204#16 := by decide
/-- A16, A17. -/
theorem test_jpV0_past_end : after 0xBFFF (withRegs [(0#4, 255#8)]) (fun t => (t.pc, t.fault)) = some (0x10FE#16, none) := by
  decide
theorem test_jpV0_uses_v0 : after 0xB2FF (withRegs [(0#4, 1#8), (2#4, 0x80#8)]) (·.pc) = some 0x300#16 := by decide
/-- A18. -/
theorem test_fetch_last :
    after 0x0000 { State.reset with pc := 4094#16 } (fun t => (t.pc, t.fault)) = some (4096#16, none) := by decide
/-- A19, with nothing placed. -/
theorem test_fetch_faults :
    seen (fun t => (t.pc, t.faultCode)) (step { State.reset with pc := 4095#16 }) = some (4095#16, 1#3) := by decide

/-! ### ALU: one step -/

/-- S2. -/
theorem test_ldImm : after 0x6AFF State.reset (fun t => (t.reg 10#4, t.pc)) = some (255#8, 0x202#16) := by decide
/-- S3, B2. -/
theorem test_addImm_wraps :
    after 0x730A (withRegs [(3#4, 250#8), (15#4, 1#8)]) (fun t => (t.reg 3#4, t.reg 15#4)) = some (4#8, 1#8) := by decide
theorem test_addImm_vf : after 0x7FFF State.reset (·.reg 15#4) = some 255#8 := by decide
/-- B29. -/
theorem test_ldReg :
    after 0x8120 (withRegs [(1#4, 1#8), (2#4, 2#8)]) (fun t => (t.reg 1#4, t.reg 2#4, t.reg 15#4)) =
      some (2#8, 2#8, 0#8) := by decide
/-- B25, B26, B27. -/
theorem test_orReg :
    after 0x8121 (withRegs [(1#4, 0xA5#8), (2#4, 0x5A#8), (15#4, 7#8)]) (fun t => (t.reg 1#4, t.reg 15#4)) =
      some (0xFF#8, 7#8) := by decide
theorem test_andReg :
    after 0x8122 (withRegs [(1#4, 0xA5#8), (2#4, 0x5A#8), (15#4, 7#8)]) (fun t => (t.reg 1#4, t.reg 15#4)) =
      some (0x00#8, 7#8) := by decide
theorem test_xorReg :
    after 0x8123 (withRegs [(1#4, 0xA5#8), (2#4, 0xFF#8), (15#4, 7#8)]) (fun t => (t.reg 1#4, t.reg 15#4)) =
      some (0x5A#8, 7#8) := by decide
/-- S4 (B4), B9: the flag is 1 for NO overflow, and with `x` = 15 the result is lost. -/
theorem test_addReg_overflow :
    after 0x8124 (withRegs [(1#4, 200#8), (2#4, 100#8), (15#4, 9#8)]) (fun t => (t.reg 1#4, t.reg 2#4, t.reg 15#4)) =
      some (44#8, 100#8, 0#8) := by decide
theorem test_addReg_vf :
    after 0x81F4 (withRegs [(15#4, 3#8), (1#4, 5#8)]) (fun t => (t.reg 1#4, t.reg 15#4)) = some (8#8, 1#8) := by decide
/-- S5 (B12), B15. -/
theorem test_sub_borrow :
    after 0x8125 (withRegs [(1#4, 5#8), (2#4, 10#8), (15#4, 1#8)]) (fun t => (t.reg 1#4, t.reg 15#4)) =
      some (251#8, 0#8) := by decide
theorem test_sub_vf : after 0x8F25 (withRegs [(15#4, 9#8), (2#4, 4#8)]) (·.reg 15#4) = some 1#8 := by decide
/-- B19, B21. -/
theorem test_shr :
    after 0x8126 (withRegs [(1#4, 0xFF#8), (2#4, 0x55#8)]) (fun t => (t.reg 1#4, t.reg 2#4, t.reg 15#4)) =
      some (0x7F#8, 0x55#8, 1#8) := by decide
theorem test_shr_vf : after 0x8F26 (withRegs [(15#4, 2#8)]) (·.reg 15#4) = some 0#8 := by decide
/-- B16, B17. -/
theorem test_subn :
    after 0x8127 (withRegs [(1#4, 5#8), (2#4, 10#8)]) (fun t => (t.reg 1#4, t.reg 2#4, t.reg 15#4)) =
      some (5#8, 10#8, 1#8) := by decide
theorem test_subn_borrow :
    after 0x8127 (withRegs [(1#4, 10#8), (2#4, 5#8), (15#4, 1#8)]) (fun t => (t.reg 1#4, t.reg 15#4)) =
      some (251#8, 0#8) := by decide
/-- B23, B24. -/
theorem test_shl :
    after 0x812E (withRegs [(1#4, 0x40#8), (2#4, 0xFF#8), (15#4, 1#8)]) (fun t => (t.reg 1#4, t.reg 15#4)) =
      some (0x80#8, 0#8) := by decide
theorem test_shl_vf : after 0x8F2E (withRegs [(15#4, 0x80#8)]) (·.reg 15#4) = some 1#8 := by decide
/-- B31: a mask of 0 gives 0 whatever the free byte is; B30's mask: bits 0 to 3 are clear whatever it is. -/
theorem test_rnd_masked (b : Byte) : b &&& 0x00#8 = 0#8 ∧ (b &&& 0xF0#8) &&& 0x0F#8 = 0#8 := by
  refine ⟨by simp, ?_⟩
  rw [BitVec.and_assoc]
  simp

/-! ### Index register and memory: one step -/

/-- C1. -/
theorem test_ldI : after 0xAFFF State.reset (·.i) = some 0x0FFF#16 := by decide
/-- C3. -/
theorem test_addI_wraps :
    after 0xF11E { withRegs [(1#4, 2#8), (15#4, 5#8)] with i := 0xFFFF#16 } (fun t => (t.i, t.reg 15#4)) =
      some (0x0001#16, 5#8) := by decide
/-- C5. -/
theorem test_ldF_whole_byte : after 0xF129 (withRegs [(1#4, 0xFF#8)]) (·.i) = some 0x04FB#16 := by decide
/-- C9, C10. -/
theorem test_ldB :
    after 0xF133 { withRegs [(1#4, 109#8)] with i := 0xFFD#16 } (fun t => (t.mem.readBytes 0xFFD 3, t.fault)) =
      some ([1#8, 0#8, 9#8], none) := by decide
theorem test_ldB_faults :
    after 0xF133 { withRegs [(1#4, 109#8)] with i := 0xFFE#16 }
      (fun t => (t.mem.readBytes 0xFFE 2, t.faultCode, t.pc)) = some ([0#8, 0#8], 5#3, 0x202#16) := by decide
/-- C12, C13. -/
theorem test_ldMemVx :
    after 0xFF55 { withRegs [(0#4, 0x11#8), (15#4, 0xEE#8)] with i := 0xFF0#16 }
      (fun t => (t.mem.read 0xFF0, t.mem.readBytes 0xFF1 14, t.mem.read 0xFFF, t.i)) =
      some (0x11#8, List.replicate 14 0#8, 0xEE#8, 0xFF0#16) := by decide
theorem test_ldMemVx_faults :
    after 0xFF55 { withRegs [(0#4, 0x11#8), (15#4, 0xEE#8)] with i := 0xFF1#16 }
      (fun t => (t.faultCode, t.mem.read 0xFF1, t.mem.read 0xFFF)) = some (5#3, 0#8, 0#8) := by decide
/-- C14, C15, on the build with the default `FONT` of R44 (as the vectors say), and another build: what is read is that
build's `FONT`. -/
theorem test_ldVxMem :
    after 0xF165 (withRegs [(2#4, 0x77#8)]) (fun t => (t.reg 0#4, t.reg 1#4, t.reg 2#4, t.i)) =
      some (0xF0#8, 0x90#8, 0x77#8, 0#16) ∧
    after 0xF065 { State.resetWith (Vector.replicate 80 0x3C#8) with i := 0x04F#16 } (·.reg 0#4) = some 0x3C#8 := by decide
theorem test_ldVxMem_all :
    after 0xFF65 { State.reset with i := 0x041#16 } (fun t => (t.reg 0#4, t.reg 14#4, t.reg 15#4)) =
      some (0xE0#8, 0x80#8, 0#8) := by decide

/-! ### Display: one step -/

/-- D12. -/
theorem test_cls :
    after 0x00E0 (withLit [0, 100, 2047] (withRegs [(15#4, 1#8)])) (fun t => (t.display, t.reg 15#4)) =
      some (State.reset.display, 1#8) := by decide
/-- D4: rows 30, 31 and then row 0. -/
theorem test_drw_wraps :
    after 0xD013 (withBytes 0x300 [0x80#8, 0x80#8, 0x80#8] { withRegs [(1#4, 30#8)] with i := 0x300#16 })
      (fun t => (t.display, t.reg 15#4)) = some ((withLit [0, 1920, 1984] State.reset).display, 0#8) := by decide
/-- D10: the collision, with `v[15]` as both coordinates. -/
theorem test_drw_collides :
    after 0xDFF1 (withLit [130] (withBytes 0x300 [0x80#8] { withRegs [(15#4, 2#8)] with i := 0x300#16 }))
      (fun t => (t.display, t.reg 15#4)) = some (State.reset.display, 1#8) := by decide

/-! ### Keypad and timers: one step -/

/-- E1, E5. -/
theorem test_skp : after 0xE19E ((withRegs [(1#4, 15#8)]).setKey 15#4 true) (·.pc) = some 0x204#16 := by decide
theorem test_skp_faults :
    after 0xE19E ((withRegs [(1#4, 16#8)]).setKey 0#4 true) (fun t => (t.faultCode, t.pc)) = some (6#3, 0x202#16) := by
  decide
/-- E3, E4. -/
theorem test_sknp_pressed : after 0xE1A1 ((withRegs [(1#4, 15#8)]).setKey 15#4 true) (·.pc) = some 0x202#16 := by decide
theorem test_sknp : after 0xE1A1 (withRegs [(1#4, 15#8)]) (·.pc) = some 0x204#16 := by decide
/-- E8, E9. -/
theorem test_ldVxK_waits :
    after 0xF10A (withRegs [(1#4, 0x55#8)]) (fun t => (t.pc, t.reg 1#4)) = some (0x200#16, 0x55#8) := by decide
theorem test_ldVxK_lowest :
    after 0xF10A ((((withRegs [(1#4, 0x55#8)]).setKey 12#4 true).setKey 4#4 true).setKey 9#4 true)
      (fun t => (t.pc, t.reg 1#4)) = some (0x202#16, 4#8) := by decide
/-- E11, E12, E13. -/
theorem test_ldVxDt : after 0xF107 { State.reset with dt := 200#8 } (fun t => (t.reg 1#4, t.dt)) = some (200#8, 200#8) := by
  decide
theorem test_ldDtVx :
    after 0xF115 { withRegs [(1#4, 200#8)] with st := 3#8 } (fun t => (t.dt, t.st)) = some (200#8, 3#8) := by decide
theorem test_ldStVx :
    after 0xF118 { withRegs [(1#4, 200#8)] with dt := 3#8 } (fun t => (t.dt, t.st, t.sndActive)) =
      some (3#8, 200#8, true) := by decide

/-! ### Host operations: one step -/

/-- H2. -/
theorem test_tickTimers :
    afterOp .tickTimers { State.reset with dt := 3#8, st := 1#8 } (fun t => (t.dt, t.st, t.sndActive)) =
      some (2#8, 0#8, false) := by decide
/-- H6. -/
theorem test_keyPressed : afterOp (.keyPressed 5#4 true) State.reset (·.keys) = some (State.reset.keys.set 5 true) := by decide
/-- H11. -/
theorem test_load_keeps_tail :
    afterOp (.load [9#8]) (withBytes 0x200 [1#8, 2#8, 3#8, 4#8] State.reset) (fun t => (t.mem.readBytes 0x200 4, t.pc)) =
      some ([9#8, 2#8, 3#8, 4#8], 0x200#16) := by decide
/-- H13: a halted machine does nothing; `load` too. -/
theorem test_halted_load :
    afterOp (.load [7#8]) { State.reset with fault := some .unknownOpcode } (fun t => (t.mem, t.opResult.toOption)) =
      some (State.reset.mem, none) := by decide
/-- H14, H15. -/
theorem test_reset :
    afterOp .reset (withBytes 0 [0x00#8] { State.reset with fault := some .unknownOpcode, pc := 0x202#16 }) id =
      some State.reset := by decide

/-- H15 on a build with another `FONT`. -/
theorem test_reset_other_font :
    afterOp .reset (withBytes 0 [0x00#8] (State.resetWith (Vector.replicate 80 0x3C#8))) (fun t => (t.mem.read 0, t.mem.read 80)) =
      some (0x3C#8, 0x00#8) := by decide

/-! ### The host's two questions -/

theorem test_decodeTableWord : decodeTableWord 16 0xD12F = some (.drw 1#4 2#4 15#4) ∧ decodeTableWord 16 0xE000 = none := by
  decide

/-- A program comes to run by `load`: the next tick fetches its first instruction (log 5; program P1's first bytes). -/
theorem test_load_then_fetch :
    afterOp (.load [0x61#8, 0x0A#8]) State.reset (fun t => (seen (·.reg 1#4) (step t))) = some (some 10#8) := by decide

/-! ### Witnesses: the hypotheses of each statement, met together -/

theorem witness_DecodeOfEncode : (Instr.drw 15#4 15#4 15#4).wellFormed = true ∧ (Instr.jp 0xFFF#12).wellFormed = true := by
  decide
theorem witness_EncodeOfDecode : decodeWord 0x8AB6#16 = some (.shr 10#4 11#4) := by decide
theorem witness_DecoderAgrees :
    decodeWord 0xF0FF#16 = none ∧ decodeWord 0xF065#16 = some (.ldVxMem 0#4) ∧
    ∃ r ∈ opcodeMap, 0xF065#16 &&& r.mask = r.matchBits := by decide
theorem witness_NoOpcodeMatchesTwoRows :
    ∃ r ∈ opcodeMap, ∃ r' ∈ opcodeMap, 0x00EE#16 &&& r.mask = r.matchBits ∧ 0x00EE#16 &&& r'.mask = r'.matchBits := by decide

/-- At the last address fetch can read, with a tick queued and with nothing queued. -/
theorem witness_StepRuns_queued :
    let s := withBytes 4094 [0x6A#8, 0xFF#8] { State.reset with pc := 4094#16, hostOps := [.tick, .reset] }
    s.Running ∧ s.pc.toNat < 4095 ∧ s.hostOps = .tick :: [.reset] ∧
    decode [s.mem.read s.pc.toNat, s.mem.read (s.pc.toNat + 1)] = .ok (.ldImm 10#4 0xFF#8, []) ∧
    (Instr.ldImm 10#4 0xFF#8).wellFormed = true := by decide
theorem witness_StepRuns_idle :
    let s := State.reset
    s.Running ∧ s.pc.toNat < 4095 ∧ s.hostOps = [] ∧
    decode [s.mem.read s.pc.toNat, s.mem.read (s.pc.toNat + 1)] = .ok (.nop, []) ∧ Instr.nop.wellFormed = true := by decide
theorem witness_StepPerforms :
    (withOp .getDisplay State.reset).hostOps = .getDisplay :: [] ∧ State.reset.hostOps = [] ∧
    (∃ t, perform .tickTimers State.reset = .next t) ∧ ∃ t, perform .reset State.reset = .next t :=
  ⟨rfl, rfl, ⟨_, rfl⟩, _, rfl⟩
theorem witness_FetchPastTheEnd :
    let s := { State.reset with pc := 4095#16 }
    s.Running ∧ 4095 ≤ s.pc.toNat := by decide
theorem witness_UnknownOpcode :
    let s := withBytes 4094 [0xE0#8, 0x00#8] { State.reset with pc := 4094#16 }
    s.Running ∧ s.pc.toNat < 4095 ∧ decodeWord (s.mem.read s.pc.toNat ++ s.mem.read (s.pc.toNat + 1)) = none := by decide
theorem witness_Halted :
    let s := { State.reset with fault := some .loadOverflow }
    s.fault = some .loadOverflow ∧ HostOp.tick ≠ .reset := by decide
theorem witness_FaultingInstruction :
    State.reset.Running ∧ ∃ t, exec .ret State.reset = .next t ∧ t.fault = some .stackUnderflow :=
  ⟨rfl, _, rfl, rfl⟩
/-- The two sides of each condition, at the boundary. -/
theorem witness_InstructionsFault :
    faultOf { State.reset with sp := 15 } (.call 0#12) = none ∧
    faultOf { State.reset with sp := 16 } (.call 0#12) = some .stackOverflow ∧
    faultOf { State.reset with sp := 1 } .ret = none ∧ faultOf State.reset .ret = some .stackUnderflow ∧
    faultOf { State.reset with i := 4095#16 } (.drw 0#4 0#4 1#4) = none ∧
    faultOf { State.reset with i := 4095#16 } (.drw 0#4 0#4 2#4) = some .outOfBoundsMemory ∧
    faultOf { State.reset with i := 65535#16 } (.drw 0#4 0#4 0#4) = none ∧
    faultOf { State.reset with i := 4093#16 } (.ldB 0#4) = none ∧
    faultOf { State.reset with i := 4094#16 } (.ldB 0#4) = some .outOfBoundsMemory ∧
    faultOf { State.reset with i := 4080#16 } (.ldMemVx 15#4) = none ∧
    faultOf { State.reset with i := 4081#16 } (.ldVxMem 15#4) = some .outOfBoundsMemory ∧
    faultOf (withRegs [(1#4, 15#8)]) (.skp 1#4) = none ∧
    faultOf (withRegs [(1#4, 16#8)]) (.sknp 1#4) = some .keyIndexOutOfRange := by decide
theorem witness_InstructionsFault_runs :
    State.reset.Running ∧ ∃ t, exec (.ldB 0#4) { State.reset with i := 4094#16 } = .next t := ⟨rfl, _, rfl⟩
theorem witness_InstructionsWriteOnly :
    State.reset.mem.wf = true ∧ ∃ t, exec (.ldMemVx 15#4) { State.reset with i := 4080#16 } = .next t := ⟨rfl, _, rfl⟩
theorem witness_Call :
    ({ State.reset with sp := 15 } : State).sp.val < 16 ∧ ({ State.reset with sp := 16 } : State).sp.val = 16 := by decide
theorem witness_Ret :
    (({ State.reset with sp := 1 } : State).sp.val = 0 + 1 ∧ ({ State.reset with sp := 16 } : State).sp.val = 15 + 1) ∧
    State.reset.sp.val = 0 := by decide
theorem witness_ReturnComesBack :
    ({ State.reset with sp := 15 } : State).sp.val < 16 ∧
    ∃ t u, exec (.call 0x300#12) { State.reset with sp := 15 } = .next t ∧ u = t.setPc 0x302#16 ∧ u.sp = t.sp ∧
      u.stack = t.stack := ⟨by decide, _, _, rfl, rfl, rfl, rfl⟩
/-- `x` other than 15, and the mask 0xFF. -/
theorem witness_alu : (14#4 : RegIdx) ≠ 15#4 ∧ (0xFF#8 : Byte) = 0xFF#8 := by decide
theorem witness_FlagWriters :
    faultOf { State.reset with i := 4095#16 } (.drw 0#4 0#4 1#4) = none ∧
    (∃ t, exec (.drw 0#4 0#4 1#4) { State.reset with i := 4095#16 } = .next t) ∧
    faultOf State.reset (.addReg 15#4 15#4) = none ∧ ∃ t, exec (.addReg 15#4 15#4) State.reset = .next t :=
  ⟨by decide, ⟨_, rfl⟩, by decide, _, rfl⟩
theorem witness_OnlySix :
    (∃ t, exec (.ldVxMem 15#4) State.reset = .next t ∧ t.reg 15#4 ≠ State.reset.reg 15#4) ∧
    ∃ t, exec (.addReg 0#4 1#4) State.reset = .next t ∧ t.reg 15#4 ≠ State.reset.reg 15#4 :=
  ⟨⟨_, rfl, by decide⟩, _, rfl, by decide⟩
theorem witness_Bcd :
    State.reset.mem.wf = true ∧ ({ State.reset with i := 4093#16 } : State).i.toNat + 2 < 4096 ∧
    4096 ≤ ({ State.reset with i := 4094#16 } : State).i.toNat + 2 := by decide
theorem witness_StoreAndLoad :
    State.reset.mem.wf = true ∧ ({ State.reset with i := 4080#16 } : State).i.toNat + (15#4 : RegIdx).toNat < 4096 ∧
    4096 ≤ ({ State.reset with i := 4081#16 } : State).i.toNat + (15#4 : RegIdx).toNat := by decide
theorem witness_OnlyThreeInstructionsWriteI :
    (∃ t, exec (.ldI 1#12) State.reset = .next t ∧ t.i ≠ State.reset.i) ∧
    (∃ t, exec (.addI 0#4) (withRegs [(0#4, 1#8)]) = .next t ∧ t.i ≠ (withRegs [(0#4, 1#8)]).i) ∧
    ∃ t, exec (.ldF 0#4) (withRegs [(0#4, 1#8)]) = .next t ∧ t.i ≠ (withRegs [(0#4, 1#8)]).i :=
  ⟨⟨_, rfl, by decide⟩, ⟨_, rfl, by decide⟩, _, rfl, by decide⟩
theorem witness_StoredCode :
    let s := { withRegs [(0#4, 0x61#8), (1#4, 0x0A#8)] with pc := 4094#16, i := 4094#16 }
    s.mem.wf = true ∧ 1 ≤ (1#4 : RegIdx).toNat ∧ s.i.toNat + (1#4 : RegIdx).toNat < 4096 ∧ s.pc = s.i ∧
    ∃ t, exec (.ldMemVx 1#4) s = .next t := ⟨by decide, by decide, by decide, rfl, _, rfl⟩
/-- The last row at 4095, no row at all, and the first row past the end; a collision, and none. -/
theorem witness_Draw_bounds :
    (({ State.reset with i := 4081#16 } : State).i.toNat + (15#4 : Nibble).toNat - 1 < 4096) ∧ (0#4 : Nibble).toNat = 0 ∧
    1 ≤ (15#4 : Nibble).toNat ∧ 4096 ≤ ({ State.reset with i := 4082#16 } : State).i.toNat + (15#4 : Nibble).toNat - 1 := by
  decide
theorem witness_Draw_collision :
    let s := withLit [0] State.reset
    ∃ t, exec (.drw 0#4 0#4 1#4) s = .next t ∧ s.display.cell 0 = true ∧ t.display.cell 0 = false :=
  ⟨_, rfl, by decide, by decide⟩
theorem witness_DrawingTwice :
    (0#4 : RegIdx) ≠ 15#4 ∧ (1#4 : RegIdx) ≠ 15#4 ∧ State.reset.i.toNat + (5#4 : Nibble).toNat - 1 < 4096 ∧
    ∃ t u, exec (.drw 0#4 1#4 5#4) State.reset = .next t ∧ exec (.drw 0#4 1#4 5#4) t = .next u :=
  ⟨by decide, by decide, by decide, _, _, rfl, rfl⟩
/-- Each device is written by some instruction. -/
theorem witness_EachDevice :
    (∃ t, exec .cls (withLit [2047] State.reset) = .next t ∧ t.display ≠ (withLit [2047] State.reset).display) ∧
    (∃ t, exec (.ldB 0#4) State.reset = .next t ∧ t.mem ≠ State.reset.mem) ∧
    (∃ t, exec (.call 0#12) State.reset = .next t ∧ t.stack ≠ State.reset.stack ∧ t.sp ≠ State.reset.sp) ∧
    (∃ t, exec (.ldDtVx 0#4) (withRegs [(0#4, 1#8)]) = .next t ∧ t.dt ≠ 0#8) ∧
    ∃ t, exec (.ldStVx 0#4) (withRegs [(0#4, 1#8)]) = .next t ∧ t.st ≠ 0#8 :=
  ⟨⟨_, rfl, by decide⟩, ⟨_, rfl, by decide⟩, ⟨_, rfl, by decide, by decide⟩, ⟨_, rfl, by decide⟩, _, rfl, by decide⟩
theorem witness_KeySkips :
    ((withRegs [(1#4, 15#8)]).reg 1#4).toNat = (15#4 : RegIdx).toNat ∧ 15 < ((withRegs [(1#4, 16#8)]).reg 1#4).toNat := by
  decide
theorem witness_WaitKey :
    let s := State.reset.setKey 15#4 true
    (s.key 15#4 = true ∧ ∀ j : RegIdx, j.toNat < (15#4 : RegIdx).toNat → s.key j = false) ∧
    ∀ k : RegIdx, State.reset.key k = false := by decide
theorem witness_WaitingTick :
    let s := withBytes 4094 [0xF1#8, 0x0A#8] { State.reset with pc := 4094#16 }
    s.Running ∧ s.pc.toNat < 4095 ∧
    decodeWord (s.mem.read s.pc.toNat ++ s.mem.read (s.pc.toNat + 1)) = some (.ldVxK 1#4) ∧
    ∀ k : RegIdx, s.key k = false := by decide
theorem witness_SoundTimer :
    (∃ t, exec (.ldStVx 3#4) State.reset = .next t) ∧
    (∃ t, exec (.ldVxDt 3#4) State.reset = .next t) ∧ ∀ x, Instr.ldVxDt 3#4 ≠ .ldStVx x :=
  ⟨⟨_, rfl⟩, ⟨_, rfl⟩, fun _ => by simp⟩
/-- `tick_timers` and `key_pressed`: running, and halted. -/
theorem witness_TickTimersAndKeyPressed :
    State.reset.Running ∧ ¬ ({ State.reset with fault := some .unknownOpcode } : State).Running := by decide
/-- 3584 bytes and 3585 bytes. -/
theorem witness_Load :
    State.reset.mem.wf = true ∧ State.reset.Running ∧ (List.replicate 3584 0xAA#8).length ≤ 3584 ∧
    3584 < (List.replicate 3585 0xAA#8).length := by
  refine ⟨rfl, rfl, ?_, ?_⟩ <;> simp only [List.length_replicate] <;> omega
theorem witness_Load_halted :
    let s := { State.reset with fault := some .stackOverflow }
    s.mem.wf = true ∧ s.fault = some .stackOverflow := by decide
theorem witness_ReadingTheDisplay : 63 < 64 ∧ 31 < 32 := by decide
theorem witness_StepKeepsTheInvariant :
    State.reset.Inv ∧ ∃ t, step State.reset = .next t := ⟨⟨rfl, by decide, by decide⟩, _, rfl⟩
/-- The invariant at its bounds: `pc` 4350 and a stack entry of 4096. -/
theorem witness_Inv_boundary :
    ({ State.reset with pc := 4350#16, stack := State.reset.stack.set 15 4096#16 } : State).Inv :=
  ⟨rfl, by decide, by decide⟩
/-- One state for each of the three fixed points, at the ends of the range of `pc`. -/
theorem witness_TickFixedPoints :
    (let s := withBytes 4094 [0x1F#8, 0xFE#8] { State.reset with pc := 4094#16 }
     s.Running ∧ tick s = .next s) ∧
    (let s := withBytes 0x2FF [0xB2#8, 0x00#8] { withRegs [(0#4, 255#8)] with pc := 0x2FF#16 }
     s.Running ∧ tick s = .next s) ∧
    (let s := withBytes 4094 [0xFF#8, 0x0A#8] { State.reset with pc := 4094#16 }
     s.Running ∧ tick s = .next s) ∧
    (State.reset.Running ∧ seen (·.pc) (tick State.reset) ≠ some State.reset.pc) :=
  ⟨⟨rfl, rfl⟩, ⟨rfl, rfl⟩, ⟨rfl, rfl⟩, rfl, by decide⟩
theorem witness_ResetState : State.reset = State.resetWith defaultFont := rfl
theorem witness_NoStepWritesTheFontParameter :
    ∃ t, step (withOp .reset (State.resetWith (Vector.replicate 80 0x3C#8))) = .next t := ⟨_, rfl⟩
/-- Two states that differ in a dead entry, just above the last live one. -/
theorem witness_DeadStackEntries :
    let s := { State.reset with sp := 15 }
    SameLive s { s with stack := s.stack.set 15 0xFFF#16 } ∧ ∃ t, step s = .next t := by
  refine ⟨⟨rfl, ?_⟩, _, rfl⟩
  decide

end Sys2Proof.Tests
end

