-- ==== Sys2Proof/Proofs/FontParameter.lean ====
section
/-! What each operation does to memory, said once, and from it that no step writes the parameter `FONT` (R5, D11). -/

namespace Sys2Proof.Machine

/-! ### Memory after a shared operation -/

/-- A fault leaves memory alone (R170), so an attempt can change it only in what its check allows. -/
theorem attempt_mem {α : Type} {s t : State} {check : Except Fault α} {go : α → State}
    (h : attempt s check go = .next t) (hgo : ∀ a, check = .ok a → (go a).mem = s.mem) : t.mem = s.mem := by
  obtain ⟨f, -, rfl⟩ | ⟨a, ha, rfl⟩ := attempt_cases h
  · rfl
  · exact hgo a ha

theorem State.push_mem {s t : State} {a : Word} (h : s.push a = .ok t) : t.mem = s.mem := by
  by_cases hsp : s.sp.val < 16
  · rw [State.push_ok s a hsp] at h
    cases h
    rfl
  · rw [State.push_full s a (by omega)] at h
    cases h

theorem State.pop_mem {s : State} {r : Word × State} (h : s.pop = .ok r) : r.2.mem = s.mem := by
  cases hsp : s.sp.val with
  | zero =>
    rw [State.pop_empty s hsp] at h
    cases h
  | succ n =>
    rw [State.pop_ok s n (by omega) hsp] at h
    cases h
    rfl

@[simp] theorem State.tickTimers_mem (s : State) : s.tickTimers.mem = s.mem := by
  by_cases hf : s.fault = none
  · simp [State.tickTimers_running hf]
  · simp [State.tickTimers_halted hf]

@[simp] theorem State.keyPressed_mem (s : State) (k : RegIdx) (p : Bool) : (s.keyPressed k p).mem = s.mem := by
  by_cases hf : s.fault = none
  · simp [State.keyPressed_running hf]
  · simp [State.keyPressed_halted hf]

/-- `load` leaves memory alone or writes the whole block at 0x200 (R199). -/
theorem loadProgram_mem {s t : State} {bytes : List Byte} (h : loadProgram bytes s = .next t) :
    t.mem = s.mem ∨ t.mem = s.mem.writeBytes 0x200 bytes := by
  by_cases hf : s.fault = none
  · by_cases hl : bytes.length ≤ 3584
    · rw [loadProgram_fits hf hl] at h
      cases h
      exact .inr rfl
    · rw [loadProgram_overflows hf (by omega)] at h
      cases h
      exact .inl rfl
  · rw [loadProgram_halted hf] at h
    cases h
    exact .inl rfl

/-! ### Memory after an instruction -/

/-- An instruction leaves memory alone, unless it is one of the two that store a block at `i` (R123, R124). -/
theorem exec_mem {i : Instr} {s t : State} (h : exec i s = .next t) :
    t.mem = s.mem ∨
    (∃ x, i = .ldB x ∧ t.mem = s.mem.writeBytes (s.effAddr 0) (bcdDigits (s.reg x))) ∨
    (∃ x, i = .ldMemVx x ∧ t.mem = s.mem.writeBytes (s.effAddr 0) (s.regsUpTo x)) := by
  cases i with
  | ldB x =>
    obtain ⟨f, -, rfl⟩ | ⟨u, -, rfl⟩ := attempt_cases h
    · exact .inl rfl
    · exact .inr (.inl ⟨x, rfl, rfl⟩)
  | ldMemVx x =>
    obtain ⟨f, -, rfl⟩ | ⟨u, -, rfl⟩ := attempt_cases h
    · exact .inl rfl
    · exact .inr (.inr ⟨x, rfl, rfl⟩)
  | ret => exact .inl (attempt_mem h fun _ hpop => (State.setPc_mem _ _).trans (State.pop_mem hpop))
  | call => exact .inl (attempt_mem h fun _ hpush => (State.setPc_mem _ _).trans (State.push_mem hpush))
  | drw | ldVxMem => exact .inl (attempt_mem h fun _ _ => rfl)
  | skp | sknp => exact .inl (attempt_mem h fun _ _ => State.skipIf_mem _ _)
  | seImm | sneImm | seReg | sneReg =>
    cases h
    exact .inl (State.skipIf_mem _ _)
  | ldVxK x =>
    cases h
    left
    split <;> rfl
  | _ =>
    cases h
    exact .inl rfl

/-! ### The parameter `FONT` -/

theorem exec_font {i : Instr} {s t : State} (h : exec i s = .next t) : t.mem.font = s.mem.font := by
  obtain hmem | ⟨x, -, hmem⟩ | ⟨x, -, hmem⟩ := exec_mem h <;> simp [hmem]

theorem tick_font {s t : State} (h : tick s = .next t) : t.mem.font = s.mem.font := by
  cases hf : s.fault with
  | some f =>
    rw [tick_halted hf] at h
    cases h
    rfl
  | none =>
    obtain ⟨-, htick⟩ | ⟨-, -, htick⟩ | ⟨i, -, -, htick⟩ := tick_running hf <;> rw [htick] at h
    · cases h
      rfl
    · cases h
      rfl
    · simpa using exec_font h

theorem perform_font {op : HostOp} {s t : State} (h : perform op s = .next t) : t.mem.font = s.mem.font := by
  cases op with
  | tick => exact tick_font h
  | load bytes => obtain hmem | hmem := loadProgram_mem h <;> simp [hmem]
  | tickTimers =>
    cases h
    simp
  | keyPressed k p =>
    cases h
    simp
  | reset | getDisplay =>
    cases h
    rfl

/-- Settles O56: by cases on the operation performed, memory is left alone, written in a block, or reset, and each keeps
the parameter. -/
theorem noStepWritesTheFontParameter : Obligations.NoStepWritesTheFontParameter := by
  unfold Obligations.NoStepWritesTheFontParameter
  intro s t h
  cases hops : s.hostOps with
  | nil => exact tick_font (step_nil hops ▸ h)
  | cons op ops => exact perform_font (s := { s with hostOps := ops }) (step_of_cons hops ▸ h)

end Sys2Proof.Machine
end

section
/-! SUPPORT. The frame of each update and of each shared operation, said once, and from them the frame of every
instruction over all parts but the bytes of memory (those are `exec_mem`). -/

namespace Sys2Proof.Machine

/-! ### A part that is the same -/

theorem Part.same_refl (s : State) (p : Part) : p.same s s := by
  cases p <;> exact rfl

theorem Part.same_trans {s t u : State} {p : Part} (hst : p.same s t) (htu : p.same t u) : p.same s u := by
  cases p <;> exact Eq.trans htu hst

/-- Frames compose, and what is written is written by the one or by the other. -/
theorem Frame.trans {s t u : State} {l m : List Part} (hst : Frame s t l) (htu : Frame t u m) : Frame s u (l ++ m) := by
  intro p hp
  rw [List.mem_append, not_or] at hp
  exact Part.same_trans (hst p hp.1) (htu p hp.2)

/-! ### The frame of each update -/

theorem State.frame_setReg (s : State) (x : RegIdx) (b : Byte) : Frame s (s.setReg x b) [.reg x] := by
  intro p hp
  cases p with
  | reg r =>
    have hne : x ≠ r := by rintro rfl; simp at hp
    simp [Part.same, hne]
  | _ => exact rfl

theorem State.frame_setFlag (s : State) (c : Bool) : Frame s (s.setFlag c) [.reg 15#4] := s.frame_setReg _ _

theorem State.frame_setRegFlag (s : State) (x : RegIdx) (b : Byte) (c : Bool) :
    Frame s (s.setRegFlag x b c) [.reg x, .reg 15#4] :=
  (s.frame_setReg x b).trans (State.frame_setFlag _ c)

theorem State.frame_setPc (s : State) (a : Word) : Frame s (s.setPc a) [.pc] := by
  intro p hp
  cases p with
  | pc => simp at hp
  | _ => exact rfl

theorem State.frame_skipIf (s : State) (c : Bool) : Frame s (s.skipIf c) [.pc] := by
  cases c with
  | true => exact s.frame_setPc _
  | false => exact fun p _ => p.same_refl s

theorem State.frame_setI (s : State) (a : Word) : Frame s (s.setI a) [.i] := by
  intro p hp
  cases p with
  | i => simp at hp
  | _ => exact rfl

theorem State.frame_setDt (s : State) (b : Byte) : Frame s (s.setDt b) [.dt] := by
  intro p hp
  cases p with
  | dt => simp at hp
  | _ => exact rfl

theorem State.frame_setSt (s : State) (b : Byte) : Frame s (s.setSt b) [.st] := by
  intro p hp
  cases p with
  | st => simp at hp
  | _ => exact rfl

theorem State.frame_latch (s : State) (f : Fault) : Frame s (s.latch f) [.fault] := by
  intro p hp
  cases p with
  | fault => simp at hp
  | _ => exact rfl

theorem State.frame_draw (s : State) : Frame s s.draw.2 [.draws] := by
  intro p hp
  cases p with
  | draws => simp at hp
  | _ => exact rfl

/-- Past the 2048 cells every display reads 0 (R24). -/
theorem Display.cell_of_le (d : Display) {k : Nat} (h : 2048 ≤ k) : d.cell k = false := by
  have : ¬ k / 64 < 32 := by omega
  simp [Display.cell, this]

theorem State.frame_setDisplay (s : State) (d : Display) : Frame s (s.setDisplay d) ((List.range 2048).map .cell) := by
  intro p hp
  cases p with
  | cell k =>
    have hk : 2048 ≤ k := by simpa using hp
    simp [Part.same, Display.cell_of_le _ hk]
  | _ => exact rfl

theorem State.same_setMem (s : State) (m : Memory) {p : Part} (hbyte : ∀ a, p ≠ .byte a) (hfont : p ≠ .font) :
    p.same s (s.setMem m) := by
  cases p with
  | byte a => exact absurd rfl (hbyte a)
  | font => exact absurd rfl hfont
  | _ => exact rfl

/-- Bytes copied to registers from `v[0]` on reach no register above the last of them (R125). -/
theorem State.frame_loadRegs (s : State) (x : RegIdx) {bs : List Byte} (hbs : bs.length = x.toNat + 1) :
    Frame s { s with v := loadRegs s.v 0 bs } (regsTo x) := by
  intro p hp
  cases p with
  | reg r =>
    have hr : ¬ r.toNat < 0 + bs.length := by
      intro hlt
      refine hp (List.mem_map.mpr ⟨r.toNat, List.mem_range.mpr (by omega), ?_⟩)
      simp
    simp only [Part.same, State.reg, loadRegs_getElem, hr, and_false, if_false]
  | _ => exact rfl

/-! ### Call and return, decided -/

/-- CALL with room on the stack (R93). -/
theorem exec_call_room {s : State} (nnn : Imm12) (h : s.sp.val < 16) :
    exec (.call nnn) s = .next { s with
      stack := s.stack.set s.sp.val s.pc h
      sp := ⟨s.sp.val + 1, Nat.succ_lt_succ h⟩
      pc := zextImm nnn } := by
  simp only [exec, execCall, State.push_ok s s.pc h, attempt_ok, State.setPc]

/-- CALL on a full stack (R93, R167). -/
theorem exec_call_full {s : State} (nnn : Imm12) (h : s.sp.val = 16) :
    exec (.call nnn) s = .next (s.latch .stackOverflow) := by
  simp only [exec, execCall, State.push_full s s.pc h, attempt_error]

/-- RET with an entry held (R91). -/
theorem exec_ret_held {s : State} {n : Nat} (hn : n < 16) (h : s.sp.val = n + 1) :
    exec .ret s = .next { s with sp := ⟨n, by omega⟩, pc := s.stack[n] } := by
  simp only [exec, execRet, State.pop_ok s n hn h, attempt_ok, State.setPc]

/-- RET on an empty stack (R91, R168). -/
theorem exec_ret_empty {s : State} (h : s.sp.val = 0) : exec .ret s = .next (s.latch .stackUnderflow) := by
  simp only [exec, execRet, State.pop_empty s h, attempt_error]

/-- CALL takes one of two ways. -/
theorem exec_call_cases {s t : State} {nnn : Imm12} (h : exec (.call nnn) s = .next t) :
    (∃ hsp : s.sp.val < 16, t = { s with
      stack := s.stack.set s.sp.val s.pc hsp
      sp := ⟨s.sp.val + 1, Nat.succ_lt_succ hsp⟩
      pc := zextImm nnn }) ∨
    (s.sp.val = 16 ∧ t = s.latch .stackOverflow) := by
  by_cases hsp : s.sp.val < 16
  · rw [exec_call_room nnn hsp] at h
    cases h
    exact .inl ⟨hsp, rfl⟩
  · have hfull : s.sp.val = 16 := by omega
    rw [exec_call_full nnn hfull] at h
    cases h
    exact .inr ⟨hfull, rfl⟩

/-- RET takes one of two ways. -/
theorem exec_ret_cases {s t : State} (h : exec .ret s = .next t) :
    (∃ n, ∃ hn : n < 16, s.sp.val = n + 1 ∧ t = { s with sp := ⟨n, by omega⟩, pc := s.stack[n] }) ∨
    (s.sp.val = 0 ∧ t = s.latch .stackUnderflow) := by
  cases hsp : s.sp.val with
  | zero =>
    rw [exec_ret_empty hsp] at h
    cases h
    exact .inr ⟨rfl, rfl⟩
  | succ n =>
    have hn : n < 16 := by omega
    rw [exec_ret_held hn hsp] at h
    cases h
    exact .inl ⟨n, hn, rfl, rfl⟩

theorem exec_call_frame {s t : State} {nnn : Imm12} (h : exec (.call nnn) s = .next t) :
    Frame s t (.fault :: (s.topEntry ++ [.sp, .pc])) := by
  intro p hp
  obtain ⟨hsp, rfl⟩ | ⟨-, rfl⟩ := exec_call_cases h
  · cases p with
    | stackEntry k =>
      have hk : s.sp.val ≠ k.val := by
        intro hk
        simp [State.topEntry, hk] at hp
      exact Vector.getElem_set_ne hsp k.isLt hk
    | sp | pc => simp at hp
    | _ => exact rfl
  · exact s.frame_latch _ p fun hmem => hp (List.mem_singleton.mp hmem ▸ List.mem_cons_self)

theorem exec_ret_frame {s t : State} (h : exec .ret s = .next t) : Frame s t [.fault, .sp, .pc] := by
  intro p hp
  obtain ⟨n, hn, -, rfl⟩ | ⟨-, rfl⟩ := exec_ret_cases h
  · cases p with
    | sp | pc => simp at hp
    | _ => exact rfl
  · exact s.frame_latch _ p fun hmem => hp (List.mem_singleton.mp hmem ▸ List.mem_cons_self)

/-! ### The frame of every instruction -/

/-- A fault changes the latch alone (R170), so an attempt changes what its effect changes, or the latch. -/
theorem attempt_frame {α : Type} {s t : State} {check : Except Fault α} {go : α → State} {l : List Part}
    (h : attempt s check go = .next t) (hgo : ∀ a, check = .ok a → Frame s (go a) l) : Frame s t (.fault :: l) := by
  intro p hp
  rw [List.mem_cons, not_or] at hp
  obtain ⟨f, -, rfl⟩ | ⟨a, ha, rfl⟩ := attempt_cases h
  · exact s.frame_latch f p (by simpa using hp.1)
  · exact hgo a ha p hp.2

/-- What the rule of an instruction does not name is unchanged, but for the latch (R84); the bytes of memory apart. -/
theorem exec_same_of_not_written {i : Instr} {s t : State} (h : exec i s = .next t) {p : Part}
    (hbyte : ∀ a, p ≠ .byte a) (hfault : p ≠ .fault) (hp : p ∉ written s i) : p.same s t := by
  have hp' : p ∉ .fault :: written s i := List.not_mem_cons_of_ne_of_not_mem hfault hp
  cases i with
  | nop => cases h; exact p.same_refl s
  | cls => cases h; exact s.frame_setDisplay _ p hp
  | ret => exact exec_ret_frame h p hp'
  | call nnn => exact exec_call_frame h p hp'
  | jp | jpV0 => cases h; exact s.frame_setPc _ p hp
  | seImm | sneImm | seReg | sneReg => cases h; exact s.frame_skipIf _ p hp
  | ldImm | addImm | ldReg | orReg | andReg | xorReg | ldVxDt => cases h; exact s.frame_setReg _ _ p hp
  | addReg | sub | shr | subn | shl => cases h; exact s.frame_setRegFlag _ _ _ p hp
  | rnd x nn => cases h; exact (s.frame_draw.trans (State.frame_setReg _ x _)) p (by simpa [written, and_comm] using hp)
  | ldI | addI | ldF => cases h; exact s.frame_setI _ p hp
  | ldDtVx => cases h; exact s.frame_setDt _ p hp
  | ldStVx => cases h; exact s.frame_setSt _ p hp
  | skp | sknp => exact attempt_frame h (fun _ _ => s.frame_skipIf _) p hp'
  | drw x y n => exact attempt_frame h (fun _ _ => (s.frame_setDisplay _).trans (State.frame_setFlag _ _)) p hp'
  | ldVxMem x => exact attempt_frame h (fun _ _ => s.frame_loadRegs x (Memory.readBytes_length _ _ _)) p hp'
  | ldVxK x =>
    cases h
    split
    · exact s.frame_setReg x _ p (by simp_all [written])
    · exact s.frame_setPc _ p (by simp_all [written])
  | ldB | ldMemVx =>
    obtain rfl | hfont := eq_or_ne p .font
    · exact exec_font h
    · obtain ⟨f, -, rfl⟩ | ⟨u, -, rfl⟩ := attempt_cases h
      · exact s.frame_latch f p (by simpa using hfault)
      · exact s.same_setMem _ hbyte hfont

end Sys2Proof.Machine
end

section
/-! Which instruction can change which part: the parts its rule names (R13, R18, R19, R23, R25, R26, R41). -/

namespace Sys2Proof.Machine

/-! ### The lists of parts -/

@[simp] theorem State.mem_topEntry (s : State) (p : Part) :
    p ∈ s.topEntry ↔ ∃ h : s.sp.val < 16, p = .stackEntry ⟨s.sp.val, h⟩ := by
  unfold State.topEntry
  split <;> simp_all

@[simp] theorem State.mem_bytesAtI (s : State) (n : Nat) (p : Part) :
    p ∈ s.bytesAtI n ↔ ∃ k < n, .byte (s.effAddr k) = p := by
  simp [State.bytesAtI]

@[simp] theorem mem_regsTo (x : RegIdx) (p : Part) :
    p ∈ regsTo x ↔ ∃ k < x.toNat + 1, .reg (BitVec.ofNat 4 k) = p := by
  simp [regsTo]

/-- Only with `x` = 15 does the copy of Fx65 reach `v[15]` (R13). -/
theorem eq_fifteen_of_mem_regsTo {x : RegIdx} (h : .reg 15#4 ∈ regsTo x) : x = 15#4 := by
  obtain ⟨k, hk, hreg⟩ := (mem_regsTo x _).mp h
  have hlast : k % 16 = 15 := by simpa using congrArg BitVec.toNat (Part.reg.inj hreg)
  apply BitVec.eq_of_toNat_eq
  have := x.isLt
  simp
  omega

/-! ### What an instruction other than the writers leaves alone -/

/-- A part that an instruction changed is one its rule names. -/
theorem mem_written_of_changed {i : Instr} {s t : State} (h : exec i s = .next t) (p : Part) (hchanged : ¬ p.same s t)
    (hbyte : ∀ a, p ≠ .byte a := by simp) (hfault : p ≠ .fault := by simp) : p ∈ written s i := by
  by_contra hp
  exact hchanged (exec_same_of_not_written h hbyte hfault hp)

theorem stackEntry_mem_written {i : Instr} {s : State} {k : Fin 16} (h : .stackEntry k ∈ written s i) :
    ∃ nnn, i = .call nnn := by
  cases i with
  | call nnn => exact ⟨nnn, rfl⟩
  | _ => simp [written] at h

theorem sp_mem_written {i : Instr} {s : State} (h : .sp ∈ written s i) : (∃ nnn, i = .call nnn) ∨ i = .ret := by
  cases i with
  | call nnn => exact .inl ⟨nnn, rfl⟩
  | ret => exact .inr rfl
  | _ => simp [written] at h

theorem dt_mem_written {i : Instr} {s : State} (h : .dt ∈ written s i) : ∃ x, i = .ldDtVx x := by
  cases i with
  | ldDtVx x => exact ⟨x, rfl⟩
  | _ => simp [written] at h

theorem st_mem_written {i : Instr} {s : State} (h : .st ∈ written s i) : ∃ x, i = .ldStVx x := by
  cases i with
  | ldStVx x => exact ⟨x, rfl⟩
  | _ => simp [written] at h

theorem cell_mem_written {i : Instr} {s : State} {k : Nat} (h : .cell k ∈ written s i) :
    i = .cls ∨ ∃ x y n, i = .drw x y n := by
  cases i with
  | cls => exact .inl rfl
  | drw x y n => exact .inr ⟨x, y, n, rfl⟩
  | _ => simp [written] at h

theorem i_mem_written {i : Instr} {s : State} (h : .i ∈ written s i) :
    (∃ nnn, i = .ldI nnn) ∨ (∃ x, i = .addI x) ∨ (∃ x, i = .ldF x) := by
  cases i with
  | ldI nnn => exact .inl ⟨nnn, rfl⟩
  | addI x => exact .inr (.inl ⟨x, rfl⟩)
  | ldF x => exact .inr (.inr ⟨x, rfl⟩)
  | _ => simp [written] at h

theorem key_not_mem_written (i : Instr) (s : State) (k : RegIdx) : .key k ∉ written s i := by
  cases i <;> simp [written]

theorem hostOps_not_mem_written (i : Instr) (s : State) : .hostOps ∉ written s i := by
  cases i <;> simp [written]

theorem exec_stack {i : Instr} {s t : State} (h : exec i s = .next t) (hcall : ∀ nnn, i ≠ .call nnn) :
    t.stack = s.stack := by
  apply Vector.ext
  intro k hk
  by_contra hne
  obtain ⟨nnn, hi⟩ := stackEntry_mem_written (mem_written_of_changed h (.stackEntry ⟨k, hk⟩) hne)
  exact hcall nnn hi

theorem exec_sp {i : Instr} {s t : State} (h : exec i s = .next t) (hcall : ∀ nnn, i ≠ .call nnn) (hret : i ≠ .ret) :
    t.sp = s.sp := by
  by_contra hne
  obtain ⟨nnn, hi⟩ | hi := sp_mem_written (mem_written_of_changed h .sp hne)
  · exact hcall nnn hi
  · exact hret hi

theorem exec_st {i : Instr} {s t : State} (h : exec i s = .next t) (hst : ∀ x, i ≠ .ldStVx x) : t.st = s.st := by
  by_contra hne
  obtain ⟨x, hi⟩ := st_mem_written (mem_written_of_changed h .st hne)
  exact hst x hi

theorem exec_keys {i : Instr} {s t : State} (h : exec i s = .next t) : t.keys = s.keys := by
  apply Vector.ext
  intro k hk
  have hkey : t.key (BitVec.ofNat 4 k) = s.key (BitVec.ofNat 4 k) :=
    exec_same_of_not_written h (p := .key _) (by simp) (by simp) (key_not_mem_written i s _)
  simpa [State.key, Nat.mod_eq_of_lt hk] using hkey

theorem exec_hostOps {i : Instr} {s t : State} (h : exec i s = .next t) : t.hostOps = s.hostOps :=
  exec_same_of_not_written h (p := .hostOps) (by simp) (by simp) (hostOps_not_mem_written i s)

/-! ### The statements -/

/-- Settles O35: `i` is named by the rules of three instructions. -/
theorem onlyThreeInstructionsWriteI : Obligations.OnlyThreeInstructionsWriteI := by
  unfold Obligations.OnlyThreeInstructionsWriteI
  intro i s t h hne
  exact i_mem_written (mem_written_of_changed h .i hne)

/-- Settles O40: each device is named by the rules of its own instructions; memory by `exec_mem`. -/
theorem eachDeviceHasItsOwnInstructions : Obligations.EachDeviceHasItsOwnInstructions := by
  unfold Obligations.EachDeviceHasItsOwnInstructions
  intro i s t h
  refine ⟨?display, ?memory, ?stack, fun hne => sp_mem_written (mem_written_of_changed h .sp hne),
    fun hne => dt_mem_written (mem_written_of_changed h .dt hne),
    fun hne => st_mem_written (mem_written_of_changed h .st hne), exec_keys h, exec_hostOps h⟩
  case display =>
    intro hne
    by_contra hi
    exact hne (Display.ext_cell _ _ fun k _ => by_contra fun hk =>
      hi (cell_mem_written (mem_written_of_changed h (.cell k) hk)))
  case memory =>
    intro hne
    obtain hmem | ⟨x, hi, -⟩ | ⟨x, hi, -⟩ := exec_mem h
    · exact absurd hmem hne
    · exact .inl ⟨x, hi⟩
    · exact .inr ⟨x, hi⟩
  case stack =>
    intro hne
    by_contra hi
    exact hne (exec_stack h fun nnn e => hi ⟨nnn, e⟩)

/-- Settles O30: `v[15]` is named by the rules of the six flag writers, and of others as their destination. -/
theorem onlySixInstructionsWriteTheFlag : Obligations.OnlySixInstructionsWriteTheFlag := by
  unfold Obligations.OnlySixInstructionsWriteTheFlag
  intro i s t h hne
  have hmem := mem_written_of_changed h (.reg 15#4) hne
  cases i with
  | ldVxMem x =>
    obtain rfl := eq_fifteen_of_mem_regsTo hmem
    simp
  | _ => simp_all [written]

/-! ### The flag's value -/

theorem State.setFlag_zero_or_one (s : State) (c : Bool) :
    (s.setFlag c).reg 15#4 = 0#8 ∨ (s.setFlag c).reg 15#4 = 1#8 := by
  simpa using flagByte_zero_or_one c

/-- A draw that meets no fault passes its bounds check (R137). -/
theorem checkAccess_of_faultOf_drw {s : State} {x y : RegIdx} {n : Nibble} (h : faultOf s (.drw x y n) = none) :
    s.checkAccess n.toNat = .ok () := by
  apply State.checkAccess_ok
  by_contra hn
  rw [faultOf, if_pos (by omega)] at h
  cases h

/-- Settles O29: each of the six ends with a write of the flag. -/
theorem flagWritersWriteZeroOrOne : Obligations.FlagWritersWriteZeroOrOne := by
  unfold Obligations.FlagWritersWriteZeroOrOne
  intro i s t x y n hi hfault h
  simp only [List.mem_cons, List.not_mem_nil, or_false] at hi
  obtain rfl | rfl | rfl | rfl | rfl | rfl := hi
  on_goal 6 => rw [exec, execDrw, checkAccess_of_faultOf_drw hfault, attempt_ok] at h
  all_goals
    cases h
    exact State.setFlag_zero_or_one _ _

end Sys2Proof.Machine
end

section
/-! The invariant of every reachable state (R16, R33): at reset, and kept by every step. -/

namespace Sys2Proof.Machine

/-! ### Reset -/

theorem State.resetWith_reg (font : Font) (x : RegIdx) : (State.resetWith font).reg x = 0#8 := by
  simp [State.reg, State.resetWith]

theorem State.resetWith_key (font : Font) (k : RegIdx) : (State.resetWith font).key k = false := by
  simp [State.key, State.resetWith]

theorem State.resetWith_stack (font : Font) (k : Fin 16) : (State.resetWith font).stack[k] = 0#16 := by
  simp [State.resetWith]

theorem unlisted_font (font : Font) {a : Nat} (h : a < 80) : unlisted font a = font[a] := dif_pos h

theorem unlisted_above_font (font : Font) {a : Nat} (h : 80 ≤ a) : unlisted font a = 0#8 := dif_neg (by omega)

/-- Settles O51: field by field, memory read as its reset contents and the display as the cleared one. -/
theorem resetStateIsAsTheSpecSays : Obligations.ResetStateIsAsTheSpecSays := by
  unfold Obligations.ResetStateIsAsTheSpecSays
  refine ⟨⟨defaultFont, rfl⟩, ?_⟩
  rintro font r rfl
  exact ⟨rfl, State.resetWith_reg font, rfl, rfl, State.resetWith_stack font, rfl, rfl,
    fun a h => unlisted_font font h, fun a h _ => unlisted_above_font font h, fun k _ => Display.cell_blank k,
    State.resetWith_key font, rfl⟩

theorem State.inv_resetWith (font : Font) : (State.resetWith font).Inv where
  mem_wf := Memory.wf_nil font
  pc_le := (by decide : (0x200#16).toNat ≤ 4350)
  stack_le k := by
    rw [State.resetWith_stack]
    decide

/-- Settles O52: `State.reset` is the reset state of the build with the default `FONT`. -/
theorem resetMeetsTheInvariant : Obligations.ResetMeetsTheInvariant := by
  unfold Obligations.ResetMeetsTheInvariant
  exact ⟨State.inv_resetWith defaultFont, State.inv_resetWith⟩

/-! ### An instruction, after fetch -/

/-- The invariant reads memory, `pc` and the stack alone. -/
theorem State.Inv.of_same {s t : State} (hs : s.Inv) (hmem : t.mem = s.mem) (hpc : t.pc = s.pc)
    (hstack : t.stack = s.stack) : t.Inv where
  mem_wf := hmem ▸ hs.mem_wf
  pc_le := hpc ▸ hs.pc_le
  stack_le := hstack ▸ hs.stack_le

theorem exec_mem_wf {i : Instr} {s t : State} (h : exec i s = .next t) (hs : s.mem.wf = true) : t.mem.wf = true := by
  obtain hmem | ⟨x, -, hmem⟩ | ⟨x, -, hmem⟩ := exec_mem h <;> rw [hmem]
  · exact hs
  · exact Memory.writeBytes_wf hs _ _
  · exact Memory.writeBytes_wf hs _ _

/-- CALL pushes the advanced `pc`, which fetch leaves at most 4096; no other instruction writes the stack (R16, R20). -/
theorem exec_stack_le {i : Instr} {s t : State} (h : exec i s = .next t) (hpc : s.pc.toNat ≤ 4096)
    (hs : ∀ k : Fin 16, (s.stack[k]).toNat ≤ 4096) (k : Fin 16) : (t.stack[k]).toNat ≤ 4096 := by
  by_cases hcall : ∃ nnn, i = .call nnn
  · obtain ⟨nnn, rfl⟩ := hcall
    obtain ⟨hsp, rfl⟩ | ⟨-, rfl⟩ := exec_call_cases h
    · by_cases hk : s.sp.val = k.val
      · simpa [Vector.getElem_set, hk] using hpc
      · simpa [Vector.getElem_set, hk] using hs k
    · exact hs k
  · rw [exec_stack h fun nnn e => hcall ⟨nnn, e⟩]
    exact hs k

theorem State.skipIf_pc_le {s : State} (c : Bool) (hpc : s.pc.toNat ≤ 4096) : (s.skipIf c).pc.toNat ≤ 4350 := by
  rw [State.skipIf_pc]
  split
  · rw [BitVec.toNat_add]
    simp
    omega
  · omega

/-- Where `pc` can go from a fetched instruction: a skip reaches 4098, a jump 4095, Bnnn 255 + 4095, a return a stack
entry, and the wait of Fx0A the opcode's own address (R16). -/
theorem exec_pc_le {i : Instr} {s t : State} (h : exec i s = .next t) (hlo : 2 ≤ s.pc.toNat) (hpc : s.pc.toNat ≤ 4096)
    (hs : ∀ k : Fin 16, (s.stack[k]).toNat ≤ 4096) : t.pc.toNat ≤ 4350 := by
  have hkept : t.pc = s.pc → t.pc.toNat ≤ 4350 := fun e => by rw [e]; omega
  by_cases hw : .pc ∈ written s i
  case neg => exact hkept (exec_same_of_not_written h (p := .pc) (by simp) (by simp) hw)
  cases i with
  | jp nnn =>
    cases h
    have := nnn.isLt
    simp
    omega
  | jpV0 nnn =>
    cases h
    have := nnn.isLt
    have := (s.reg 0#4).isLt
    rw [State.setPc_pc, BitVec.toNat_add]
    simp
    omega
  | call nnn =>
    obtain ⟨-, rfl⟩ | ⟨-, rfl⟩ := exec_call_cases h
    · have := nnn.isLt
      simp
      omega
    · exact hkept rfl
  | ret =>
    obtain ⟨n, hn, -, rfl⟩ | ⟨-, rfl⟩ := exec_ret_cases h
    · exact (hs ⟨n, hn⟩).trans (by omega)
    · exact hkept rfl
  | seImm | sneImm | seReg | sneReg =>
    cases h
    exact State.skipIf_pc_le _ hpc
  | skp | sknp =>
    obtain ⟨f, -, rfl⟩ | ⟨k, -, rfl⟩ := attempt_cases h
    · exact hkept rfl
    · exact State.skipIf_pc_le _ hpc
  | ldVxK x =>
    cases h
    split
    · rw [State.setReg_pc]
      omega
    · rw [State.setPc_pc, BitVec.toNat_sub]
      simp
      omega
  | _ => simp [written] at hw

theorem exec_inv {i : Instr} {s t : State} (h : exec i s = .next t) (hs : s.Inv) (hlo : 2 ≤ s.pc.toNat)
    (hpc : s.pc.toNat ≤ 4096) : t.Inv where
  mem_wf := exec_mem_wf h hs.mem_wf
  pc_le := exec_pc_le h hlo hpc hs.stack_le
  stack_le := exec_stack_le h hpc hs.stack_le

/-! ### Every operation -/

/-- The `pc` that a successful fetch leaves (R16). -/
theorem fetched_pc_toNat {s : State} (h : s.pc.toNat < 4095) : (s.setPc (s.pc + 2#16)).pc.toNat = s.pc.toNat + 2 := by
  rw [State.setPc_pc, BitVec.toNat_add]
  simp
  omega

theorem State.Inv.fetched {s : State} (hs : s.Inv) (h : s.pc.toNat < 4095) : (s.setPc (s.pc + 2#16)).Inv where
  mem_wf := hs.mem_wf
  pc_le := by
    rw [fetched_pc_toNat h]
    omega
  stack_le := hs.stack_le

theorem tick_inv {s t : State} (h : tick s = .next t) (hs : s.Inv) : t.Inv := by
  cases hf : s.fault with
  | some f =>
    rw [tick_halted hf] at h
    cases h
    exact hs
  | none =>
    obtain ⟨-, htick⟩ | ⟨hpc, -, htick⟩ | ⟨i, hpc, -, htick⟩ := tick_running hf <;> rw [htick] at h
    · cases h
      exact hs.of_same rfl rfl rfl
    · cases h
      exact (hs.fetched hpc).of_same rfl rfl rfl
    · have hadvanced := fetched_pc_toNat hpc
      exact exec_inv h (hs.fetched hpc) (by omega) (by omega)

theorem State.Inv.tickTimers {s : State} (hs : s.Inv) : s.tickTimers.Inv := by
  by_cases hf : s.fault = none
  · rw [State.tickTimers_running hf]
    exact hs.of_same rfl rfl rfl
  · rwa [State.tickTimers_halted hf]

theorem State.Inv.keyPressed {s : State} (hs : s.Inv) (k : RegIdx) (p : Bool) : (s.keyPressed k p).Inv := by
  by_cases hf : s.fault = none
  · rw [State.keyPressed_running hf]
    exact hs.of_same rfl rfl rfl
  · rwa [State.keyPressed_halted hf]

theorem loadProgram_inv {s t : State} {bytes : List Byte} (h : loadProgram bytes s = .next t) (hs : s.Inv) : t.Inv := by
  by_cases hf : s.fault = none
  · by_cases hl : bytes.length ≤ 3584
    · rw [loadProgram_fits hf hl] at h
      cases h
      exact ⟨Memory.writeBytes_wf hs.mem_wf _ _, hs.pc_le, hs.stack_le⟩
    · rw [loadProgram_overflows hf (by omega)] at h
      cases h
      exact hs.of_same rfl rfl rfl
  · rw [loadProgram_halted hf] at h
    cases h
    exact hs

theorem perform_inv {op : HostOp} {s t : State} (h : perform op s = .next t) (hs : s.Inv) : t.Inv := by
  cases op with
  | tick => exact tick_inv h hs
  | load bytes => exact loadProgram_inv h hs
  | tickTimers =>
    cases h
    exact hs.tickTimers
  | keyPressed k p =>
    cases h
    exact hs.keyPressed k p
  | reset =>
    cases h
    exact (State.inv_resetWith s.mem.font).of_same rfl rfl rfl
  | getDisplay =>
    cases h
    exact hs

/-- Settles O53: by cases on the operation performed; a tick hands its instruction a `pc` of 2 to 4096. -/
theorem stepKeepsTheInvariant : Obligations.StepKeepsTheInvariant := by
  unfold Obligations.StepKeepsTheInvariant
  intro s t hs h
  cases hops : s.hostOps with
  | nil => exact tick_inv (step_nil hops ▸ h) hs
  | cons op ops =>
    have hqueue : State.Inv { s with hostOps := ops } := hs.of_same rfl rfl rfl
    exact perform_inv (step_of_cons hops ▸ h) hqueue

end Sys2Proof.Machine
end

section
/-! What no operation reads: the sound timer (R23) and the stack entries at and above `sp` (R19). -/

namespace Sys2Proof.Machine

/-! ### The stack's contents and `st`, replaced -/

/-- The state with other stack contents and another sound timer: what every instruction but call, return and Fx18
neither reads nor writes. -/
def State.withUnread (s : State) (stack : Vector Word 16) (st : Byte) : State := { s with stack := stack, st := st }

theorem State.withUnread_skipIf (s : State) (stack : Vector Word 16) (st : Byte) (c : Bool) :
    (s.withUnread stack st).skipIf c = (s.skipIf c).withUnread stack st := by
  cases c <;> rfl

/-- An attempt whose check and effect do not see the replacement takes the same way with it. -/
theorem attempt_withUnread {α : Type} {s t : State} {stack : Vector Word 16} {st : Byte} {check : Except Fault α}
    {go go' : α → State} (h : attempt s check go = .next t) (hgo : ∀ a, go' a = (go a).withUnread stack st) :
    attempt (s.withUnread stack st) check go' = .next (t.withUnread stack st) := by
  obtain ⟨f, rfl, rfl⟩ | ⟨a, rfl, rfl⟩ := attempt_cases h
  · rfl
  · rw [attempt_ok, hgo]

theorem exec_ldVxK_pressed {s : State} {k : Nat} (x : RegIdx) (h : s.firstKey = some k) :
    exec (.ldVxK x) s = .next (s.setReg x (BitVec.ofNat 8 k)) := by
  simp only [exec, execLdVxK, h]

theorem exec_ldVxK_waits {s : State} (x : RegIdx) (h : s.firstKey = none) :
    exec (.ldVxK x) s = .next (s.setPc (s.pc - 2#16)) := by
  simp only [exec, execLdVxK, h]

theorem exec_withUnread {i : Instr} {s t : State} (stack : Vector Word 16) (st : Byte) (h : exec i s = .next t)
    (hcall : ∀ nnn, i ≠ .call nnn) (hret : i ≠ .ret) (hst : ∀ x, i ≠ .ldStVx x) :
    exec i (s.withUnread stack st) = .next (t.withUnread stack st) := by
  cases i with
  | call nnn => exact absurd rfl (hcall nnn)
  | ret => exact absurd rfl hret
  | ldStVx x => exact absurd rfl (hst x)
  | seImm | sneImm | seReg | sneReg =>
    cases h
    exact congrArg _ (s.withUnread_skipIf stack st _)
  | skp | sknp => exact attempt_withUnread h fun _ => s.withUnread_skipIf stack st _
  | drw | ldB | ldMemVx | ldVxMem => exact attempt_withUnread h fun _ => rfl
  | ldVxK x =>
    cases hk : s.firstKey with
    | none =>
      rw [exec_ldVxK_waits x hk] at h
      cases h
      exact exec_ldVxK_waits (s := s.withUnread stack st) x hk
    | some k =>
      rw [exec_ldVxK_pressed x hk] at h
      cases h
      exact exec_ldVxK_pressed (s := s.withUnread stack st) x hk
  | _ =>
    cases h
    rfl

/-! ### The sound timer -/

theorem exec_with_st {i : Instr} {s t : State} (b : Byte) (h : exec i s = .next t) (hst : ∀ x, i ≠ .ldStVx x) :
    exec i { s with st := b } = .next { t with st := b } := by
  by_cases hcall : ∃ nnn, i = .call nnn
  · obtain ⟨nnn, rfl⟩ := hcall
    obtain ⟨hsp, rfl⟩ | ⟨hfull, rfl⟩ := exec_call_cases h
    · exact exec_call_room (s := { s with st := b }) nnn hsp
    · exact exec_call_full (s := { s with st := b }) nnn hfull
  by_cases hret : i = .ret
  · subst hret
    obtain ⟨n, hn, hsp, rfl⟩ | ⟨hempty, rfl⟩ := exec_ret_cases h
    · exact exec_ret_held (s := { s with st := b }) hn hsp
    · exact exec_ret_empty (s := { s with st := b }) hempty
  have hcall' : ∀ nnn, i ≠ .call nnn := fun nnn e => hcall ⟨nnn, e⟩
  calc exec i { s with st := b } = .next (t.withUnread s.stack b) := exec_withUnread s.stack b h hcall' hret hst
    _ = .next { t with st := b } := by rw [← exec_stack h hcall', State.withUnread]

/-- Settles O45: call and return work on the stack alone, and every other instruction but Fx18 does not see `st`. -/
theorem soundTimerIsNeverRead : Obligations.SoundTimerIsNeverRead := by
  unfold Obligations.SoundTimerIsNeverRead
  intro i s t b h
  refine ⟨?_, exec_with_st b h⟩
  rintro x rfl
  cases h
  rfl

/-! ### The dead stack entries -/

/-- The second state of the relation is the first with other stack contents, the live entries kept. -/
theorem SameLive.exists_stack {s t : State} (h : SameLive s t) :
    ∃ stack, t = { s with stack := stack } ∧ ∀ k : Fin 16, k.val < s.sp.val → stack[k] = s.stack[k] :=
  ⟨t.stack, h.rest, h.live⟩

theorem SameLive.latch {s t : State} (h : SameLive s t) (f : Fault) : SameLive (s.latch f) (t.latch f) := by
  obtain ⟨stack, rfl, hlive⟩ := h.exists_stack
  exact ⟨rfl, hlive⟩

theorem SameLive.setPc {s t : State} (h : SameLive s t) (a : Word) : SameLive (s.setPc a) (t.setPc a) := by
  obtain ⟨stack, rfl, hlive⟩ := h.exists_stack
  exact ⟨rfl, hlive⟩

theorem SameLive.withHostOps {s t : State} (h : SameLive s t) (ops : List HostOp) :
    SameLive { s with hostOps := ops } { t with hostOps := ops } := by
  obtain ⟨stack, rfl, hlive⟩ := h.exists_stack
  exact ⟨rfl, hlive⟩

/-- CALL writes the same entry in both states, and that entry becomes live (R20, R93). -/
theorem exec_call_sameLive {s t s' : State} {nnn : Imm12} (hst : SameLive s t) (h : exec (.call nnn) s = .next s') :
    ∃ t', exec (.call nnn) t = .next t' ∧ SameLive s' t' := by
  obtain ⟨stack, rfl, hlive⟩ := hst.exists_stack
  obtain ⟨hsp, rfl⟩ | ⟨hfull, rfl⟩ := exec_call_cases h
  · refine ⟨_, exec_call_room (s := { s with stack := stack }) nnn hsp, rfl, fun k hk => ?_⟩
    by_cases htop : s.sp.val = k.val
    · simp [htop]
    · have hbelow : k.val < s.sp.val := by
        have : k.val < s.sp.val + 1 := hk
        omega
      simpa [Vector.getElem_set, htop] using hlive k hbelow
  · exact ⟨_, exec_call_full (s := { s with stack := stack }) nnn hfull, hst.latch _⟩

/-- RET reads the topmost live entry alone (R21, R91). -/
theorem exec_ret_sameLive {s t s' : State} (hst : SameLive s t) (h : exec .ret s = .next s') :
    ∃ t', exec .ret t = .next t' ∧ SameLive s' t' := by
  obtain ⟨stack, rfl, hlive⟩ := hst.exists_stack
  obtain ⟨n, hn, hsp, rfl⟩ | ⟨hempty, rfl⟩ := exec_ret_cases h
  · have htop : stack[n] = s.stack[n] := hlive ⟨n, hn⟩ (by simp [hsp])
    refine ⟨_, exec_ret_held (s := { s with stack := stack }) hn hsp, ?_, fun k hk => hlive k ?_⟩
    · simp only [htop]
    · have : k.val < n := hk
      omega
  · exact ⟨_, exec_ret_empty (s := { s with stack := stack }) hempty, hst.latch _⟩

theorem exec_sameLive {i : Instr} {s t s' : State} (hst : SameLive s t) (h : exec i s = .next s') :
    ∃ t', exec i t = .next t' ∧ SameLive s' t' := by
  by_cases hcall : ∃ nnn, i = .call nnn
  · obtain ⟨nnn, rfl⟩ := hcall
    exact exec_call_sameLive hst h
  by_cases hret : i = .ret
  · subst hret
    exact exec_ret_sameLive hst h
  have hcall' : ∀ nnn, i ≠ .call nnn := fun nnn e => hcall ⟨nnn, e⟩
  obtain ⟨stack, rfl, hlive⟩ := hst.exists_stack
  by_cases htimer : ∃ x, i = .ldStVx x
  · obtain ⟨x, rfl⟩ := htimer
    cases h
    exact ⟨_, rfl, rfl, hlive⟩
  have htimer' : ∀ x, i ≠ .ldStVx x := fun x e => htimer ⟨x, e⟩
  refine ⟨s'.withUnread stack s.st, exec_withUnread stack s.st h hcall' hret htimer', ?_, fun k hk => ?_⟩
  · rw [← exec_st h htimer', State.withUnread]
  · have hk' : k.val < s.sp.val := exec_sp h hcall' hret ▸ hk
    exact (hlive k hk').trans (congrArg (·[k]) (exec_stack h hcall')).symm

/-! ### Every operation -/

theorem tick_fetch_fault {s : State} (hf : s.fault = none) (hpc : 4095 ≤ s.pc.toNat) :
    tick s = .next (s.latch .outOfBoundsFetch) := by
  simp only [tick, hf, State.fetch_error s hpc, raise]

theorem tick_unknown_opcode {s : State} (hf : s.fault = none) (hpc : s.pc.toNat < 4095)
    (hd : decodeWord (s.mem.read s.pc.toNat ++ s.mem.read (s.pc.toNat + 1)) = none) :
    tick s = .next ((s.setPc (s.pc + 2#16)).latch .unknownOpcode) := by
  simp only [tick, hf, State.fetch_ok s hpc, hd, raise]

theorem tick_exec {s : State} {i : Instr} (hf : s.fault = none) (hpc : s.pc.toNat < 4095)
    (hd : decodeWord (s.mem.read s.pc.toNat ++ s.mem.read (s.pc.toNat + 1)) = some i) :
    tick s = exec i (s.setPc (s.pc + 2#16)) := by
  simp only [tick, hf, State.fetch_ok s hpc, hd]

/-- Whether a tick is halted, and what it fetches and decodes, is read from `fault`, `pc` and memory, which the two
states share. -/
theorem tick_sameLive {s t s' : State} (hst : SameLive s t) (h : tick s = .next s') :
    ∃ t', tick t = .next t' ∧ SameLive s' t' := by
  have hfault : t.fault = s.fault := by rw [hst.rest]
  have hpc : t.pc = s.pc := by rw [hst.rest]
  have hmem : t.mem = s.mem := by rw [hst.rest]
  cases hf : s.fault with
  | some f =>
    rw [tick_halted hf] at h
    cases h
    exact ⟨t, tick_halted (hfault.trans hf), hst⟩
  | none =>
    rw [hf] at hfault
    have hfetched : SameLive (s.setPc (s.pc + 2#16)) (t.setPc (t.pc + 2#16)) := hpc ▸ hst.setPc _
    obtain ⟨hend, htick⟩ | ⟨hlt, hd, htick⟩ | ⟨i, hlt, hd, htick⟩ := tick_running hf <;> rw [htick] at h
    · cases h
      exact ⟨_, tick_fetch_fault hfault (hpc ▸ hend), hst.latch _⟩
    · cases h
      exact ⟨_, tick_unknown_opcode hfault (hpc ▸ hlt) (by rwa [hmem, hpc]), hfetched.latch _⟩
    · rw [tick_exec hfault (hpc ▸ hlt) (by rwa [hmem, hpc])]
      exact exec_sameLive hfetched h

theorem SameLive.tickTimers {s t : State} (hst : SameLive s t) : SameLive s.tickTimers t.tickTimers := by
  obtain ⟨stack, rfl, hlive⟩ := hst.exists_stack
  by_cases hf : s.fault = none
  · rw [State.tickTimers_running hf, State.tickTimers_running (s := { s with stack := stack }) hf]
    exact ⟨rfl, hlive⟩
  · rwa [State.tickTimers_halted hf, State.tickTimers_halted (s := { s with stack := stack }) hf]

theorem SameLive.keyPressed {s t : State} (hst : SameLive s t) (k : RegIdx) (p : Bool) :
    SameLive (s.keyPressed k p) (t.keyPressed k p) := by
  obtain ⟨stack, rfl, hlive⟩ := hst.exists_stack
  by_cases hf : s.fault = none
  · rw [State.keyPressed_running hf, State.keyPressed_running (s := { s with stack := stack }) hf]
    exact ⟨rfl, hlive⟩
  · rwa [State.keyPressed_halted hf, State.keyPressed_halted (s := { s with stack := stack }) hf]

theorem loadProgram_sameLive {s t s' : State} {bytes : List Byte} (hst : SameLive s t)
    (h : loadProgram bytes s = .next s') : ∃ t', loadProgram bytes t = .next t' ∧ SameLive s' t' := by
  obtain ⟨stack, rfl, hlive⟩ := hst.exists_stack
  by_cases hf : s.fault = none
  · by_cases hl : bytes.length ≤ 3584
    · rw [loadProgram_fits hf hl] at h
      cases h
      exact ⟨_, loadProgram_fits (s := { s with stack := stack }) hf hl, rfl, hlive⟩
    · rw [loadProgram_overflows hf (by omega)] at h
      cases h
      exact ⟨_, loadProgram_overflows (s := { s with stack := stack }) hf (by omega), hst.latch _⟩
  · rw [loadProgram_halted hf] at h
    cases h
    exact ⟨_, loadProgram_halted (s := { s with stack := stack }) hf bytes, hst⟩

theorem perform_sameLive {op : HostOp} {s t s' : State} (hst : SameLive s t) (h : perform op s = .next s') :
    ∃ t', perform op t = .next t' ∧ SameLive s' t' := by
  cases op with
  | tick => exact tick_sameLive hst h
  | load bytes => exact loadProgram_sameLive hst h
  | tickTimers =>
    cases h
    exact ⟨_, rfl, hst.tickTimers⟩
  | keyPressed k p =>
    cases h
    exact ⟨_, rfl, hst.keyPressed k p⟩
  | reset =>
    cases h
    obtain ⟨stack, rfl, -⟩ := hst.exists_stack
    exact ⟨_, rfl, rfl, fun _ _ => rfl⟩
  | getDisplay =>
    cases h
    exact ⟨_, rfl, hst⟩

/-- Settles O55: by cases on the operation performed, which both states have queued. -/
theorem deadStackEntriesNeverMatter : Obligations.DeadStackEntriesNeverMatter := by
  unfold Obligations.DeadStackEntriesNeverMatter
  intro s t s' hst h
  have hqueue : t.hostOps = s.hostOps := by rw [hst.rest]
  cases hops : s.hostOps with
  | nil =>
    rw [step_nil (hqueue.trans hops)]
    exact tick_sameLive hst (step_nil hops ▸ h)
  | cons op ops =>
    rw [step_of_cons (hqueue.trans hops)]
    exact perform_sameLive (hst.withHostOps ops) (step_of_cons hops ▸ h)

end Sys2Proof.Machine
end

section
/-! What Fx55 leaves in memory (R124), and that the next fetch reads it (R52). -/

namespace Sys2Proof.Machine

/-- Fx55 with its bytes in memory (R124). -/
theorem exec_ldMemVx_fits {s : State} {x : RegIdx} (h : s.i.toNat + x.toNat < 4096) :
    exec (.ldMemVx x) s = .next (s.setMem (s.mem.writeBytes s.i.toNat (s.regsUpTo x))) := by
  simp only [exec, execLdMemVx, State.checkAccess_ok s (x.toNat + 1) (.inr h), attempt_ok, State.effAddr_zero]

/-- A register copied to memory with those up to `v[x]` is read back at its own place in the block. -/
theorem Memory.read_writeBytes_regsUpTo {m : Memory} {s : State} {a : Nat} {x r : RegIdx} (hm : m.wf)
    (ha : a + x.toNat < 4096) (hr : r.toNat ≤ x.toNat) :
    (m.writeBytes a (s.regsUpTo x)).read (a + r.toNat) = s.reg r := by
  have hfits : a + (s.regsUpTo x).length ≤ 4096 := by rw [State.regsUpTo_length]; omega
  have hblock : a ≤ a + r.toNat ∧ a + r.toNat < a + (s.regsUpTo x).length := by rw [State.regsUpTo_length]; omega
  rw [Memory.read_writeBytes hm hfits, if_pos hblock, Nat.add_sub_cancel_left, State.regsUpTo_getD s x r hr]

/-- Settles O36: Fx55 leaves `pc` where it stands, so fetch reads the first two bytes of the block just stored. -/
theorem storedCodeIsFetched : Obligations.StoredCodeIsFetched := by
  unfold Obligations.StoredCodeIsFetched
  intro s t x hwf hx hfits hpc h
  rw [exec_ldMemVx_fits hfits] at h
  cases h
  have hhigh : (s.mem.writeBytes s.i.toNat (s.regsUpTo x)).read s.i.toNat = s.reg 0#4 :=
    Memory.read_writeBytes_regsUpTo (r := 0#4) hwf hfits (Nat.zero_le _)
  have hlow : (s.mem.writeBytes s.i.toNat (s.regsUpTo x)).read (s.i.toNat + 1) = s.reg 1#4 :=
    Memory.read_writeBytes_regsUpTo (r := 1#4) hwf hfits hx
  rw [State.fetch_ok, State.setMem_mem, State.setMem_pc, hpc, hhigh, hlow]
  rw [State.setMem_pc, hpc]
  omega

end Sys2Proof.Machine
end

section
/-! Decoding and encoding undo each other, instruction by instruction and opcode by opcode (R64 to R66), and the opcodes
that decode to nothing (R67). -/

namespace Sys2Proof

/-! ### Every instruction -/

/-- Each format of R62 is read back field by field. -/
theorem decodeWord_encode (i : Instr) : decodeWord (encode i) = some i := by
  cases i with
  | nop | cls | ret => rfl
  | jp nnn | call nnn | ldI nnn | jpV0 nnn => simp [encode, encodeNNN, decodeNibbles]
  | seImm x nn | sneImm x nn | ldImm x nn | addImm x nn | rnd x nn => simp [encode, encodeXNN, decodeNibbles]
  | seReg x y | ldReg x y | orReg x y | andReg x y | xorReg x y | addReg x y | sub x y | shr x y | subn x y
  | shl x y | sneReg x y => exact decodeWord_ofNibbles _ x y _
  | drw x y n => exact decodeWord_ofNibbles _ x y n
  | skp x | sknp x | ldVxDt x | ldVxK x | ldDtVx x | ldStVx x | addI x | ldF x | ldB x | ldMemVx x | ldVxMem x =>
    exact decodeWord_ofNibbles _ x _ _

/-- Settles O1: the word by its format, the bytes because decoding them is decoding the word they hold. -/
theorem decodeOfEncodeIsTheInstruction : Obligations.DecodeOfEncodeIsTheInstruction := by
  unfold Obligations.DecodeOfEncodeIsTheInstruction
  intro i rest _
  exact ⟨decodeWord_encode i, by rw [encodeBytes, decode_bytes, decodeWord_encode]⟩

/-! ### Every opcode -/

/-- Format NNN puts back the three nibbles its immediate was read from. -/
theorem encodeNNN_of_append {a b c d : Nibble} {nnn : Imm12} (h : b ++ c ++ d = nnn) :
    encodeNNN a nnn = Word.ofNibbles a b c d := by
  subst h
  apply BitVec.eq_of_getLsbD_eq
  intro k hk
  simp only [encodeNNN, Word.ofNibbles, BitVec.getLsbD_extractLsb', BitVec.getLsbD_append]
  interval_cases k <;> simp

/-- Format XNN puts back the two nibbles its immediate was read from. -/
theorem encodeXNN_of_append {a b c d : Nibble} {nn : Byte} (h : c ++ d = nn) :
    encodeXNN a b nn = Word.ofNibbles a b c d := by
  rw [← h, encodeXNN, Byte.hiNibble_append, Byte.loNibble_append]

/-- The row found for four nibbles compares every literal digit and reads every other nibble into an operand (R65), so
encoding puts all four back. -/
theorem encode_of_decodeNibbles {a b c d : Nibble} {i : Instr} (h : decodeNibbles a b c d = some i) :
    encode i = Word.ofNibbles a b c d := by
  unfold decodeNibbles at h
  dsimp only at h
  split at h
  case h_1 => -- the three words of first digit 0
    split_ifs at h with hnnn hnnn hnnn <;> cases h <;> exact encodeNNN_of_append (a := 0x0#4) hnnn
  case h_2 | h_3 | h_11 | h_12 => -- format NNN: 1, 2, A, B
    cases h
    exact encodeNNN_of_append rfl
  case h_4 | h_5 | h_7 | h_8 | h_13 => -- format XNN: 3, 4, 6, 7, C
    cases h
    exact encodeXNN_of_append rfl
  case h_6 | h_10 => -- format XY with last digit 0: 5, 9
    split_ifs at h with hd
    cases h
    exact hd ▸ rfl
  case h_9 => -- format XY: 8
    split at h <;> cases h <;> rfl
  case h_14 => -- format XYN: D
    cases h
    rfl
  case h_15 | h_16 => -- format X: E, F
    split at h <;> cases h <;> exact encodeXNN_of_append (by assumption)
  case h_17 => -- no first digit is left
    cases h

/-- Settles O2: an opcode is its four nibbles, and encoding puts all of them back. -/
theorem encodeOfDecodeIsTheOpcode : Obligations.EncodeOfDecodeIsTheOpcode := by
  unfold Obligations.EncodeOfDecodeIsTheOpcode
  intro op i h
  rw [encode_of_decodeNibbles h, Word.ofNibbles_nibbles]

/-! ### The illegal opcodes, by first digit (R67) -/

theorem decodeNibbles_zero_eq_none {b c d : Nibble} :
    decodeNibbles 0x0#4 b c d = none ↔ (b ++ c ++ d : Imm12).toNat ∉ [0x000, 0x0E0, 0x0EE] := by
  simp only [decodeNibbles]
  split_ifs <;> simp_all [← BitVec.toNat_inj]

theorem decodeNibbles_eight_eq_none {b c d : Nibble} :
    decodeNibbles 0x8#4 b c d = none ↔ d.toNat ∈ [0x8, 0x9, 0xA, 0xB, 0xC, 0xD, 0xF] := by
  obtain hd | hd : d ∈ [0x0#4, 0x1#4, 0x2#4, 0x3#4, 0x4#4, 0x5#4, 0x6#4, 0x7#4, 0xE#4] ∨
      d ∈ [0x8#4, 0x9#4, 0xA#4, 0xB#4, 0xC#4, 0xD#4, 0xF#4] := by
    revert d
    decide
  all_goals fin_cases hd <;> simp [decodeNibbles]

theorem decodeNibbles_fourteen_eq_none {b c d : Nibble} :
    decodeNibbles 0xE#4 b c d = none ↔ (c ++ d : Byte).toNat ∉ [0x9E, 0xA1] := by
  simp only [decodeNibbles]
  split <;> simp_all [← BitVec.toNat_inj]

theorem decodeNibbles_fifteen_eq_none {b c d : Nibble} :
    decodeNibbles 0xF#4 b c d = none ↔
      (c ++ d : Byte).toNat ∉ [0x07, 0x0A, 0x15, 0x18, 0x1E, 0x29, 0x33, 0x55, 0x65] := by
  simp only [decodeNibbles]
  split <;> simp_all [← BitVec.toNat_inj]

/-- Every row of a first digit outside these six accepts all operands, so only these six have illegal opcodes. -/
theorem decodeNibbles_eq_none_iff (a b c d : Nibble) :
    decodeNibbles a b c d = none ↔
      (a.toNat = 0x0 ∧ (b ++ c ++ d : Imm12).toNat ∉ [0x000, 0x0E0, 0x0EE]) ∨
      (a.toNat = 0x5 ∧ d.toNat ≠ 0) ∨
      (a.toNat = 0x8 ∧ d.toNat ∈ [0x8, 0x9, 0xA, 0xB, 0xC, 0xD, 0xF]) ∨
      (a.toNat = 0x9 ∧ d.toNat ≠ 0) ∨
      (a.toNat = 0xE ∧ (c ++ d : Byte).toNat ∉ [0x9E, 0xA1]) ∨
      (a.toNat = 0xF ∧ (c ++ d : Byte).toNat ∉ [0x07, 0x0A, 0x15, 0x18, 0x1E, 0x29, 0x33, 0x55, 0x65]) := by
  obtain rfl | rfl | rfl | rfl | rfl | rfl | ha :
      a = 0x0#4 ∨ a = 0x5#4 ∨ a = 0x8#4 ∨ a = 0x9#4 ∨ a = 0xE#4 ∨ a = 0xF#4 ∨
        a ∈ [0x1#4, 0x2#4, 0x3#4, 0x4#4, 0x6#4, 0x7#4, 0xA#4, 0xB#4, 0xC#4, 0xD#4] := by
    revert a
    decide
  · simp [decodeNibbles_zero_eq_none]
  · simp [decodeNibbles, ← BitVec.toNat_inj]
  · simp [decodeNibbles_eight_eq_none]
  · simp [decodeNibbles, ← BitVec.toNat_inj]
  · simp [decodeNibbles_fourteen_eq_none]
  · simp [decodeNibbles_fifteen_eq_none]
  · fin_cases ha <;> simp [decodeNibbles]

/-! ### The fields of an opcode as numbers (R61) -/

theorem Word.toNat_n1 (op : Word) : op.n1.toNat = op.toNat / 4096 := by
  have hop := op.isLt
  rw [Word.n1, BitVec.extractLsb'_toNat, Nat.shiftRight_eq_div_pow]
  omega

theorem Word.toNat_n4 (op : Word) : op.n4.toNat = op.toNat % 16 := rfl

theorem Word.toNat_n3_n4 (op : Word) : (op.n3 ++ op.n4 : Byte).toNat = op.toNat % 256 := by
  have hnn : (op.n3 ++ op.n4 : Byte) = op.extractLsb' 0 8 := BitVec.extractLsb'_append_extractLsb'_eq_extractLsb' rfl
  rw [hnn, BitVec.extractLsb'_toNat]
  rfl

theorem Word.toNat_n2_n3_n4 (op : Word) : (op.n2 ++ op.n3 ++ op.n4 : Imm12).toNat = op.toNat % 4096 := by
  have hxy : op.n2 ++ op.n3 = op.extractLsb' 4 8 := BitVec.extractLsb'_append_extractLsb'_eq_extractLsb' rfl
  have hnnn : (op.extractLsb' 4 8 ++ op.n4 : Imm12) = op.extractLsb' 0 12 :=
    BitVec.extractLsb'_append_extractLsb'_eq_extractLsb' rfl
  rw [hxy, hnnn, BitVec.extractLsb'_toNat]
  rfl

/-- Settles O5: the illegal nibbles, read as numbers of the opcode. -/
theorem illegalOpcodesAreThoseOfTheTable : Obligations.IllegalOpcodesAreThoseOfTheTable := by
  unfold Obligations.IllegalOpcodesAreThoseOfTheTable
  intro op
  rw [decodeWord, decodeNibbles_eq_none_iff, Word.toNat_n1, Word.toNat_n4, Word.toNat_n3_n4, Word.toNat_n2_n3_n4]

/-- Settles O6: the words are closed, so the decoder runs on them. -/
theorem sampleWordsDecode : Obligations.SampleWordsDecode := by
  unfold Obligations.SampleWordsDecode
  decide

end Sys2Proof
end

section
/-! The decoder against the mask-and-match rows of the opcode map (R64), and the disjointness of the rows (R65). -/

/-! ### From an instruction to its row -/

namespace Sys2Proof.Laws.RowMatch

theorem statement_all (i : Instr) : Statement i := by
  cases i
  exacts [nop, cls, ret, jp _, call _, seImm _ _, sneImm _ _, seReg _ _, ldImm _ _, addImm _ _, ldReg _ _, orReg _ _,
    andReg _ _, xorReg _ _, addReg _ _, sub _ _, shr _ _, subn _ _, shl _ _, sneReg _ _, ldI _, jpV0 _, rnd _ _,
    drw _ _ _, skp _, sknp _, ldVxDt _, ldVxK _, ldDtVx _, ldStVx _, addI _, ldF _, ldB _, ldMemVx _, ldVxMem _]

end Sys2Proof.Laws.RowMatch

namespace Sys2Proof

/-! ### What a mask compares -/

theorem Word.ofNibbles_inj {a b c d a' b' c' d' : Nibble} :
    Word.ofNibbles a b c d = Word.ofNibbles a' b' c' d' ↔ a = a' ∧ b = b' ∧ c = c' ∧ d = d' := by
  constructor
  · intro h
    exact ⟨by simpa using congrArg Word.n1 h, by simpa using congrArg Word.n2 h, by simpa using congrArg Word.n3 h,
      by simpa using congrArg Word.n4 h⟩
  · rintro ⟨rfl, rfl, rfl, rfl⟩
    rfl

theorem Word.and_eq_ofNibbles_iff {op : Word} {m₁ m₂ m₃ m₄ a b c d : Nibble} :
    op &&& Word.ofNibbles m₁ m₂ m₃ m₄ = Word.ofNibbles a b c d ↔
      op.n1 &&& m₁ = a ∧ op.n2 &&& m₂ = b ∧ op.n3 &&& m₃ = c ∧ op.n4 &&& m₄ = d := by
  conv_lhs => rw [← op.ofNibbles_nibbles]
  rw [Laws.RowMatch.ofNibbles_and, Word.ofNibbles_inj]

theorem Nibble.and_fifteen (a : Nibble) : a &&& 0xF#4 = a := BitVec.and_allOnes

/-! ### From a row to its instruction -/

namespace OpcodeRow

/-- Every opcode the row accepts decodes to an instruction of the row's name (R64). -/
def Decodes (r : OpcodeRow) : Prop :=
  ∀ op : Word, op &&& r.mask = r.matchBits → (decodeWord op).map Instr.mnemonic = some r.mnemonic

/-- A mask without operands accepts one opcode. -/
theorem decodes_whole {s : String} {w : Word} (h : (decodeWord w).map Instr.mnemonic = some s) :
    Decodes ⟨s, w, 0xFFFF#16⟩ := by
  intro op hop
  obtain rfl : op = w := BitVec.and_allOnes.symm.trans hop
  exact h

/-- The mask of formats NNN, XNN and XYN fixes the first nibble. -/
theorem decodes_top {s : String} (a : Nibble)
    (h : ∀ b c d, (decodeNibbles a b c d).map Instr.mnemonic = some s) :
    Decodes ⟨s, Word.ofNibbles a 0x0#4 0x0#4 0x0#4, Word.ofNibbles 0xF#4 0x0#4 0x0#4 0x0#4⟩ := by
  intro op hop
  obtain ⟨rfl, -, -, -⟩ := Word.and_eq_ofNibbles_iff.mp hop
  rw [Nibble.and_fifteen] at h
  exact h _ _ _

/-- The mask of format XY fixes the first nibble and the last. -/
theorem decodes_xy {s : String} (a d : Nibble) (h : ∀ b c, (decodeNibbles a b c d).map Instr.mnemonic = some s) :
    Decodes ⟨s, Word.ofNibbles a 0x0#4 0x0#4 d, Word.ofNibbles 0xF#4 0x0#4 0x0#4 0xF#4⟩ := by
  intro op hop
  obtain ⟨rfl, -, -, rfl⟩ := Word.and_eq_ofNibbles_iff.mp hop
  simp only [Nibble.and_fifteen] at h
  exact h _ _

/-- The mask of format X fixes all but the second nibble. -/
theorem decodes_x {s : String} (a c d : Nibble) (h : ∀ b, (decodeNibbles a b c d).map Instr.mnemonic = some s) :
    Decodes ⟨s, Word.ofNibbles a 0x0#4 c d, Word.ofNibbles 0xF#4 0x0#4 0xF#4 0xF#4⟩ := by
  intro op hop
  obtain ⟨rfl, -, rfl, rfl⟩ := Word.and_eq_ofNibbles_iff.mp hop
  simp only [Nibble.and_fifteen] at h
  exact h _

/-- Row by row in the map's order: its mask's format, and the digits the mask fixes. -/
theorem decodes_all : ∀ r ∈ opcodeMap, r.Decodes := by
  simp only [opcodeMap, List.cons_append, List.nil_append, List.forall_mem_cons]
  exact ⟨decodes_whole rfl, decodes_whole rfl, decodes_whole rfl,
    decodes_top 0x1#4 fun _ _ _ => rfl, decodes_top 0x2#4 fun _ _ _ => rfl, decodes_top 0x3#4 fun _ _ _ => rfl,
    decodes_top 0x4#4 fun _ _ _ => rfl, decodes_xy 0x5#4 0x0#4 fun _ _ => rfl, decodes_top 0x6#4 fun _ _ _ => rfl,
    decodes_top 0x7#4 fun _ _ _ => rfl,
    decodes_xy 0x8#4 0x0#4 fun _ _ => rfl, decodes_xy 0x8#4 0x1#4 fun _ _ => rfl,
    decodes_xy 0x8#4 0x2#4 fun _ _ => rfl, decodes_xy 0x8#4 0x3#4 fun _ _ => rfl,
    decodes_xy 0x8#4 0x4#4 fun _ _ => rfl, decodes_xy 0x8#4 0x5#4 fun _ _ => rfl,
    decodes_xy 0x8#4 0x6#4 fun _ _ => rfl, decodes_xy 0x8#4 0x7#4 fun _ _ => rfl,
    decodes_xy 0x8#4 0xE#4 fun _ _ => rfl, decodes_xy 0x9#4 0x0#4 fun _ _ => rfl,
    decodes_top 0xA#4 fun _ _ _ => rfl, decodes_top 0xB#4 fun _ _ _ => rfl, decodes_top 0xC#4 fun _ _ _ => rfl,
    decodes_top 0xD#4 fun _ _ _ => rfl,
    decodes_x 0xE#4 0x9#4 0xE#4 fun _ => rfl, decodes_x 0xE#4 0xA#4 0x1#4 fun _ => rfl,
    decodes_x 0xF#4 0x0#4 0x7#4 fun _ => rfl, decodes_x 0xF#4 0x0#4 0xA#4 fun _ => rfl,
    decodes_x 0xF#4 0x1#4 0x5#4 fun _ => rfl, decodes_x 0xF#4 0x1#4 0x8#4 fun _ => rfl,
    decodes_x 0xF#4 0x1#4 0xE#4 fun _ => rfl, decodes_x 0xF#4 0x2#4 0x9#4 fun _ => rfl,
    decodes_x 0xF#4 0x3#4 0x3#4 fun _ => rfl, decodes_x 0xF#4 0x5#4 0x5#4 fun _ => rfl,
    decodes_x 0xF#4 0x6#4 0x5#4 fun _ => rfl, List.forall_mem_nil _⟩

end OpcodeRow

/-! ### The statements -/

/-- Settles O3: an opcode is the encoding of what it decodes to, which that instruction's row accepts; and every opcode
that a row accepts decodes to the row's instruction. -/
theorem decoderAgreesWithTheOpcodeMap : Obligations.DecoderAgreesWithTheOpcodeMap := by
  unfold Obligations.DecoderAgreesWithTheOpcodeMap
  intro op
  constructor
  · intro i h
    obtain ⟨-, r, hr, hname, haccepts⟩ := Laws.RowMatch.statement_all i
    rw [encodeOfDecodeIsTheOpcode op i h] at haccepts
    exact ⟨r, hr, hname, beq_iff_eq.mp haccepts⟩
  · intro r hr haccepts
    exact Option.map_eq_some_iff.mp (OpcodeRow.decodes_all r hr op haccepts)

theorem opcodeMap_mnemonic_nodup : (opcodeMap.map OpcodeRow.mnemonic).Nodup := by decide

/-- Settles O4: two rows that accept one opcode both bear the name of the instruction it decodes to, and no two rows of
the map share a name. -/
theorem noOpcodeMatchesTwoRows : Obligations.NoOpcodeMatchesTwoRows := by
  unfold Obligations.NoOpcodeMatchesTwoRows
  refine ⟨rfl, fun op r hr r' hr' h h' => List.inj_on_of_nodup_map opcodeMap_mnemonic_nodup hr hr' ?_⟩
  have hname := OpcodeRow.decodes_all r hr op h
  rw [OpcodeRow.decodes_all r' hr' op h'] at hname
  exact (Option.some.inj hname).symm

end Sys2Proof
end

section
/-! The engine (spec 40_execution_engine.md): every step goes on (R89), runs the instruction it decodes (R80 to R84),
faults before any effect (R85) and writes only what a rule names (R84). -/

namespace Sys2Proof.Machine

/-! ### Every step answers a next state -/

theorem attempt_total {α : Type} (s : State) (check : Except Fault α) (go : α → State) :
    ∃ t, attempt s check go = .next t := by
  cases check with
  | error f => exact ⟨_, rfl⟩
  | ok a => exact ⟨_, rfl⟩

theorem exec_total (i : Instr) (s : State) : ∃ t, exec i s = .next t := by
  cases i with
  | ret | call | drw | skp | sknp | ldB | ldMemVx | ldVxMem => exact attempt_total s _ _
  | _ => exact ⟨_, rfl⟩

theorem tick_total (s : State) : ∃ t, tick s = .next t := by
  cases hf : s.fault with
  | some f => exact ⟨_, tick_halted hf⟩
  | none =>
    obtain ⟨-, htick⟩ | ⟨-, -, htick⟩ | ⟨i, -, -, htick⟩ := tick_running hf
    · exact ⟨_, htick⟩
    · exact ⟨_, htick⟩
    · rw [htick]
      exact exec_total i _

theorem loadProgram_total (bytes : List Byte) (s : State) : ∃ t, loadProgram bytes s = .next t := by
  by_cases hf : s.fault = none
  · by_cases hl : bytes.length ≤ 3584
    · exact ⟨_, loadProgram_fits hf hl⟩
    · exact ⟨_, loadProgram_overflows hf (by omega)⟩
  · exact ⟨_, loadProgram_halted hf bytes⟩

theorem perform_total (op : HostOp) (s : State) : ∃ t, perform op s = .next t := by
  cases op with
  | tick => exact tick_total s
  | load bytes => exact loadProgram_total bytes s
  | tickTimers | keyPressed | reset | getDisplay => exact ⟨_, rfl⟩

/-- Settles O14: a check that fails is a next state too, so instructions, ticks and host operations all answer one. -/
theorem everyStepAnswersANextState : Obligations.EveryStepAnswersANextState := by
  unfold Obligations.EveryStepAnswersANextState
  refine ⟨exec_total, fun s => ?_⟩
  cases hops : s.hostOps with
  | nil => rw [step_nil hops]; exact tick_total s
  | cons op ops => rw [step_of_cons hops]; exact perform_total op _

/-! ### A step runs the decoded instruction -/

/-- Two bytes that decode are an opcode that decodes (R45, R60). -/
theorem decodeWord_of_decode_pair {hi lo : Byte} {i : Instr} (h : decode [hi, lo] = .ok (i, [])) :
    decodeWord (hi ++ lo) = some i := by
  cases hd : decodeWord (hi ++ lo) <;> simp_all [decode]

/-- A step whose next operation is a tick, queued or by an empty queue, is a tick on the queue moved on (log 3). -/
theorem step_of_tick_next {s : State} {ops : List HostOp}
    (h : s.hostOps = .tick :: ops ∨ (s.hostOps = [] ∧ ops = [])) : step s = tick { s with hostOps := ops } := by
  obtain hcons | ⟨hnil, rfl⟩ := h
  · exact step_of_cons hcons
  · rw [step_nil hnil, ← hnil]

/-- Settles O7: a tick with the queue moved on, whose fetch and decode succeed. -/
theorem stepRunsTheDecodedInstruction : Obligations.StepRunsTheDecodedInstruction := by
  unfold Obligations.StepRunsTheDecodedInstruction
  intro s ops i hrun hpc hnext hdecode _
  rw [step_of_tick_next hnext]
  exact tick_exec (s := { s with hostOps := ops }) hrun hpc (decodeWord_of_decode_pair hdecode)

/-! ### Faults are precise -/

/-- An attempt whose effect leaves the latch alone either faults with no other effect or leaves the latch alone. -/
theorem attempt_latch_or_fault {α : Type} {s t : State} {check : Except Fault α} {go : α → State}
    (h : attempt s check go = .next t) (hgo : ∀ a, (go a).fault = s.fault) :
    (∃ f, t = s.latch f) ∨ t.fault = s.fault := by
  obtain ⟨f, -, rfl⟩ | ⟨a, -, rfl⟩ := attempt_cases h
  · exact .inl ⟨f, rfl⟩
  · exact .inr (hgo a)

/-- An instruction either latches a cause and does nothing else, or leaves the latch alone (R85, R170). -/
theorem exec_latch_or_fault {i : Instr} {s t : State} (h : exec i s = .next t) :
    (∃ f, t = s.latch f) ∨ t.fault = s.fault := by
  cases i with
  | call =>
    obtain ⟨-, rfl⟩ | ⟨-, rfl⟩ := exec_call_cases h
    · exact .inr rfl
    · exact .inl ⟨_, rfl⟩
  | ret =>
    obtain ⟨n, hn, -, rfl⟩ | ⟨-, rfl⟩ := exec_ret_cases h
    · exact .inr rfl
    · exact .inl ⟨_, rfl⟩
  | drw | ldB | ldMemVx | ldVxMem => exact attempt_latch_or_fault h fun _ => rfl
  | skp | sknp => exact attempt_latch_or_fault h fun _ => State.skipIf_fault _ _
  | seImm | sneImm | seReg | sneReg =>
    cases h
    exact .inr (State.skipIf_fault _ _)
  | ldVxK x =>
    cases h
    right
    split <;> rfl
  | _ =>
    cases h
    exact .inr rfl

/-- Settles O12: a running machine's latch is empty, so an instruction that leaves a fault latched it. -/
theorem faultingInstructionHasNoOtherEffect : Obligations.FaultingInstructionHasNoOtherEffect := by
  unfold Obligations.FaultingInstructionHasNoOtherEffect
  intro i s t f hrun h hfault
  obtain ⟨g, rfl⟩ | hkept := exec_latch_or_fault h
  · exact hfault ▸ rfl
  · rw [hkept, hrun] at hfault
    cases hfault

/-! ### The frame of every instruction, the bytes of memory with it -/

/-- A write reaches no other address; past the end of memory it reaches none (log 6). -/
theorem Memory.read_write_of_ne {m : Memory} (hm : m.wf) {a a' : Nat} (b : Byte) (h : a' ≠ a) :
    (m.write a b).read a' = m.read a' := by
  by_cases ha : a < 4096
  · rw [Memory.read_write hm ha, if_neg h]
  · rw [Memory.write, if_neg ha]

/-- A block write reaches no address outside the block, wherever the block lies. -/
theorem Memory.read_writeBytes_outside {m : Memory} (hm : m.wf) {a a' : Nat} {bs : List Byte}
    (h : a' < a ∨ a + bs.length ≤ a') : (m.writeBytes a bs).read a' = m.read a' := by
  induction bs generalizing m a with
  | nil => rfl
  | cons b bs ih =>
    rw [List.length_cons] at h
    rw [Memory.writeBytes, ih (Memory.write_wf hm a b) (by omega), Memory.read_write_of_ne hm b (by omega)]

/-- An address whose byte is not among the `n` at `i` lies below or past them (R126). -/
theorem State.outside_of_not_mem_bytesAtI {s : State} {n a : Nat} (h : .byte a ∉ s.bytesAtI n) :
    a < s.effAddr 0 ∨ s.effAddr 0 + n ≤ a := by
  by_contra hin
  simp only [State.effAddr_zero] at hin
  refine h ((s.mem_bytesAtI n _).mpr ⟨a - s.i.toNat, by omega, congrArg Part.byte ?_⟩)
  simp only [State.effAddr]
  omega

/-- A byte of memory that the rule of an instruction does not name is unchanged (R84, R126). -/
theorem exec_read_of_not_written {i : Instr} {s t : State} (hwf : s.mem.wf) (h : exec i s = .next t) {a : Nat}
    (ha : .byte a ∉ written s i) : t.mem.read a = s.mem.read a := by
  obtain hmem | ⟨x, rfl, hmem⟩ | ⟨x, rfl, hmem⟩ := exec_mem h <;> rw [hmem]
  · rw [Memory.read_writeBytes_outside hwf]
    exact State.outside_of_not_mem_bytesAtI ha
  · rw [Memory.read_writeBytes_outside hwf]
    rw [State.regsUpTo_length]
    exact State.outside_of_not_mem_bytesAtI ha

/-- Settles O15: a part is the latch, a byte of memory, or one of the rest. -/
theorem instructionsWriteOnlyWhatTheirRuleNames : Obligations.InstructionsWriteOnlyWhatTheirRuleNames := by
  unfold Obligations.InstructionsWriteOnlyWhatTheirRuleNames
  intro i s t hwf h p hp
  rw [List.mem_cons, not_or] at hp
  obtain ⟨hfault, hwritten⟩ := hp
  by_cases hbyte : ∃ a, p = .byte a
  · obtain ⟨a, rfl⟩ := hbyte
    exact exec_read_of_not_written hwf h hwritten
  · exact exec_same_of_not_written h (fun a e => hbyte ⟨a, e⟩) hfault hwritten

end Sys2Proof.Machine
end

section
/-! Control flow (spec 41_control_flow.md): where each jump and skip leaves `pc`, what a call pushes and a return pops,
and that a return undoes its call. -/

namespace Sys2Proof.Machine

/-! ### Jumps (R90, R92, R98) -/

/-- The target of Bnnn is at most 255 + 4095, so the 16-bit sum never wraps (R98). -/
theorem toNat_zextByte_add_zextImm (b : Byte) (nnn : Imm12) :
    (zextByte b + zextImm nnn).toNat = b.toNat + nnn.toNat := by
  have hb := b.isLt
  have hnnn := nnn.isLt
  rw [BitVec.toNat_add, zextByte_toNat, zextImm_toNat]
  omega

/-- Settles O16: each jump is one update of `pc`. -/
theorem nopAndJumpsSetPc : Obligations.NopAndJumpsSetPc := by
  unfold Obligations.NopAndJumpsSetPc
  intro s nnn
  refine ⟨rfl, ⟨_, rfl, ?_, s.frame_setPc _⟩, ⟨_, rfl, ?_, s.frame_setPc _⟩⟩
  · exact zextImm_toNat nnn
  · exact toNat_zextByte_add_zextImm (s.reg 0#4) nnn

/-! ### Register skips (R94 to R97) -/

/-- An instruction that skips on a condition completes, and moves `pc` alone, by the rule of `skip` (R7). -/
theorem exec_skipIf {i : Instr} {s : State} {c : Prop} [Decidable c] (h : exec i s = .next (s.skipIf (decide c))) :
    ∃ t, exec i s = .next t ∧ t.pc = (if c then s.pc + 2#16 else s.pc) ∧ Frame s t [.pc] := by
  refine ⟨_, h, ?_, s.frame_skipIf _⟩
  simp only [State.skipIf_pc, decide_eq_true_eq]

/-- Settles O17: the four differ in their condition alone. -/
theorem registerSkipsAdvancePc : Obligations.RegisterSkipsAdvancePc := by
  unfold Obligations.RegisterSkipsAdvancePc
  intro s x y nn
  exact ⟨exec_skipIf rfl, exec_skipIf rfl, exec_skipIf rfl, exec_skipIf rfl⟩

/-! ### Call and return (R91, R93) -/

/-- A frame that allows a fault allows none where the latch is as it was. -/
theorem Frame.of_fault_same {s t : State} {l : List Part} (h : Frame s t (.fault :: l)) (hfault : t.fault = s.fault) :
    Frame s t l := by
  intro p hp
  obtain rfl | hne := eq_or_ne p .fault
  · exact hfault
  · exact h p (List.not_mem_cons_of_ne_of_not_mem hne hp)

theorem State.topEntry_of_lt {s : State} (h : s.sp.val < 16) : s.topEntry = [.stackEntry ⟨s.sp.val, h⟩] := dif_pos h

/-- Settles O18: a call with room, and a call on a full stack. -/
theorem callPushesOrOverflows : Obligations.CallPushesOrOverflows := by
  unfold Obligations.CallPushesOrOverflows
  refine fun s nnn => ⟨fun hroom => ?_, fun hfull => ⟨_, exec_call_full nnn hfull, rfl, rfl⟩⟩
  have hcall := exec_call_room nnn hroom
  have hframe := (exec_call_frame hcall).of_fault_same rfl
  rw [State.topEntry_of_lt hroom] at hframe
  exact ⟨_, hcall, Vector.getElem_set_self hroom, rfl, zextImm_toNat nnn, hframe⟩

/-- A return with an entry held changes `sp` and `pc` alone: the entry it pops is not cleared (R21, R91). -/
theorem exec_ret_held_spec {s : State} {n : Nat} (hn : n < 16) (h : s.sp.val = n + 1) :
    ∃ t, exec .ret s = .next t ∧ t.sp.val = n ∧ t.pc = s.stack[n] ∧ Frame s t [.sp, .pc] :=
  have hret := exec_ret_held hn h
  ⟨_, hret, rfl, rfl, (exec_ret_frame hret).of_fault_same rfl⟩

/-- Settles O19: a return with an entry held, and a return on an empty stack. -/
theorem retPopsOrUnderflows : Obligations.RetPopsOrUnderflows := by
  unfold Obligations.RetPopsOrUnderflows
  exact fun s => ⟨fun n hn hheld => exec_ret_held_spec hn hheld,
    fun hempty => ⟨_, exec_ret_empty hempty, rfl, rfl⟩⟩

/-- Settles O20: the call leaves its return address in the entry `sp` was at, with `sp` one above, and that entry is
the one the return pops. -/
theorem returnComesBackToItsCall : Obligations.ReturnComesBackToItsCall := by
  unfold Obligations.ReturnComesBackToItsCall
  intro s t u nnn hroom hcall hsp hstack
  rw [exec_call_room nnn hroom] at hcall
  cases hcall
  have hheld : u.sp.val = s.sp.val + 1 := congrArg Fin.val hsp
  have htop : u.stack[s.sp.val] = s.pc := by
    simp only [hstack, Vector.getElem_set_self]
  obtain ⟨w, hret, hwsp, hwpc, hframe⟩ := exec_ret_held_spec hroom hheld
  exact ⟨w, hret, hwpc.trans htop, Fin.ext hwsp, hframe⟩

end Sys2Proof.Machine
end

section
/-! ALU (spec 42_alu.md): every instruction is one write of `v[x]`, or one write of `v[x]` and then of the flag (R113),
and so its statement is about the byte written and the flag's condition. -/

namespace Sys2Proof.Machine

/-! ### One write, or a write and the flag -/

theorem State.reg_setReg_self (s : State) (x : RegIdx) (b : Byte) : (s.setReg x b).reg x = b := by
  rw [State.reg_setReg, if_pos rfl]

theorem State.reg_setRegFlag_flag (s : State) (x : RegIdx) (b : Byte) (c : Bool) :
    (s.setRegFlag x b c).reg 15#4 = flagByte c := by
  rw [State.setRegFlag_reg, if_pos rfl]

theorem State.reg_setRegFlag_self (s : State) {x : RegIdx} (b : Byte) (c : Bool) (hx : x ≠ 15#4) :
    (s.setRegFlag x b c).reg x = b := by
  rw [State.setRegFlag_reg, if_neg hx.symm, if_pos rfl]

/-- An instruction that is a write of `v[x]` completes, leaves the byte there, and changes nothing else. -/
theorem exec_setReg {i : Instr} {s : State} {x : RegIdx} {b : Byte} (h : exec i s = .next (s.setReg x b)) :
    ∃ t, exec i s = .next t ∧ t.reg x = b ∧ Frame s t [.reg x] :=
  ⟨_, h, s.reg_setReg_self x b, s.frame_setReg x b⟩

/-- An instruction that is a write of `v[x]` and then of `v[15]` completes, with the result in `v[x]` unless `x` is 15,
the flag in `v[15]`, and nothing else changed (R113). -/
theorem exec_setRegFlag {i : Instr} {s : State} {x : RegIdx} {b : Byte} {c : Bool} {result flag : Nat}
    (h : exec i s = .next (s.setRegFlag x b c)) (hresult : b.toNat = result) (hflag : (flagByte c).toNat = flag) :
    ∃ t, exec i s = .next t ∧ (x ≠ 15#4 → (t.reg x).toNat = result) ∧ (t.reg 15#4).toNat = flag ∧
      Frame s t [.reg x, .reg 15#4] := by
  refine ⟨_, h, fun hx => ?_, ?_, s.frame_setRegFlag x b c⟩
  · rw [State.reg_setRegFlag_self s b c hx, hresult]
  · rw [State.reg_setRegFlag_flag, hflag]

/-! ### The results as numbers -/

/-- The difference modulo 256, whichever operand is the larger (R108, R110). -/
theorem toNat_sub_byte (a b : Byte) : (a - b).toNat = (a.toNat + 256 - b.toNat) % 256 := by
  have hb := b.isLt
  rw [BitVec.toNat_sub]
  congr 1
  omega

theorem toNat_shiftRight_one (a : Byte) : (a >>> 1).toNat = a.toNat / 2 := by
  rw [BitVec.toNat_ushiftRight, Nat.shiftRight_one]

theorem toNat_shiftLeft_one (a : Byte) : (a <<< 1).toNat = a.toNat * 2 % 256 := by
  rw [BitVec.toNat_shiftLeft, Nat.shiftLeft_eq, Nat.pow_one]

/-! ### The flags as numbers -/

theorem toNat_flagByte_decide (c : Prop) [Decidable c] : (flagByte (decide c)).toNat = if c then 1 else 0 := by
  rw [flagByte_toNat]
  exact if_congr decide_eq_true_iff rfl rfl

theorem toNat_flagByte_noOverflow (a b : Byte) :
    (flagByte (noOverflow a b)).toNat = if a.toNat + b.toNat ≤ 255 then 1 else 0 :=
  toNat_flagByte_decide _

theorem toNat_flagByte_noBorrow (a b : Byte) :
    (flagByte (noBorrow a b)).toNat = if b.toNat ≤ a.toNat then 1 else 0 :=
  toNat_flagByte_decide _

theorem toNat_flagByte_eq_toNat (c : Bool) : (flagByte c).toNat = c.toNat := by cases c <;> rfl

/-- The bit 8xy6 drops is the remainder of halving (R109). -/
theorem toNat_flagByte_lowBit (a : Byte) : (flagByte (lowBit a)).toNat = a.toNat % 2 := by
  rw [toNat_flagByte_eq_toNat, lowBit, ← BitVec.testBit_toNat, Nat.toNat_testBit, Nat.pow_zero, Nat.div_one]

/-- The bit 8xyE drops is the carry of doubling (R111). -/
theorem toNat_flagByte_topBit (a : Byte) : (flagByte (topBit a)).toNat = a.toNat / 128 := by
  have ha := a.isLt
  rw [toNat_flagByte_eq_toNat, topBit, ← BitVec.testBit_toNat, Nat.toNat_testBit]
  omega

/-! ### Arithmetic and shifts, with a flag -/

/-- Settles O24: the byte written is the sum, and the flag its absence of overflow. -/
theorem addSetsSumAndNoOverflowFlag : Obligations.AddSetsSumAndNoOverflowFlag := by
  unfold Obligations.AddSetsSumAndNoOverflowFlag
  exact fun s x y => exec_setRegFlag rfl (BitVec.toNat_add _ _) (toNat_flagByte_noOverflow _ _)

/-- Settles O25: the byte written is the difference, and the flag its absence of borrow. -/
theorem subSetsDifferenceAndNoBorrowFlag : Obligations.SubSetsDifferenceAndNoBorrowFlag := by
  unfold Obligations.SubSetsDifferenceAndNoBorrowFlag
  exact fun s x y => exec_setRegFlag rfl (toNat_sub_byte _ _) (toNat_flagByte_noBorrow _ _)

/-- Settles O26: as for 8xy5, with the operands exchanged. -/
theorem subnSetsDifferenceAndNoBorrowFlag : Obligations.SubnSetsDifferenceAndNoBorrowFlag := by
  unfold Obligations.SubnSetsDifferenceAndNoBorrowFlag
  exact fun s x y => exec_setRegFlag rfl (toNat_sub_byte _ _) (toNat_flagByte_noBorrow _ _)

/-- Settles O27: halving and doubling, each with its dropped bit; `y` is not read. -/
theorem shiftsMoveOneBitIntoTheFlag : Obligations.ShiftsMoveOneBitIntoTheFlag := by
  unfold Obligations.ShiftsMoveOneBitIntoTheFlag
  intro s x y y'
  refine ⟨?shr, ?shl, rfl, rfl⟩
  case shr => exact exec_setRegFlag rfl (toNat_shiftRight_one _) (toNat_flagByte_lowBit _)
  case shl => exact exec_setRegFlag rfl (toNat_shiftLeft_one _) (toNat_flagByte_topBit _)

/-! ### Loads, immediate addition and logic, with no flag -/

/-- Settles O21: both loads are one write of `v[x]`. -/
theorem loadsSetTheRegister : Obligations.LoadsSetTheRegister := by
  unfold Obligations.LoadsSetTheRegister
  exact fun s x y nn => ⟨exec_setReg rfl, exec_setReg rfl⟩

/-- Settles O22: one write of `v[x]`, of the sum. -/
theorem addImmediateWrapsWithoutAFlag : Obligations.AddImmediateWrapsWithoutAFlag := by
  unfold Obligations.AddImmediateWrapsWithoutAFlag
  intro s x nn
  obtain ⟨t, hexec, hreg, hframe⟩ := exec_setReg (i := .addImm x nn) (s := s) rfl
  exact ⟨t, hexec, hreg ▸ BitVec.toNat_add _ _, hframe⟩

/-- An instruction that writes to `v[x]` a byte known bit by bit. -/
theorem exec_setReg_bits {i : Instr} {s : State} {x : RegIdx} {b : Byte} {bit : Nat → Bool}
    (h : exec i s = .next (s.setReg x b)) (hbits : ∀ k, b.getLsbD k = bit k) :
    ∃ t, exec i s = .next t ∧ Frame s t [.reg x] ∧ ∀ k, (t.reg x).getLsbD k = bit k := by
  obtain ⟨t, hexec, hreg, hframe⟩ := exec_setReg h
  exact ⟨t, hexec, hframe, fun k => hreg ▸ hbits k⟩

/-- Settles O23: one write of `v[x]`, of a byte whose bits the library gives. -/
theorem logicActsBitByBit : Obligations.LogicActsBitByBit := by
  unfold Obligations.LogicActsBitByBit
  exact fun s x y => ⟨exec_setReg_bits rfl fun _ => BitVec.getLsbD_or,
    exec_setReg_bits rfl fun _ => BitVec.getLsbD_and, exec_setReg_bits rfl fun _ => BitVec.getLsbD_xor⟩

/-! ### The random byte -/

/-- Cxnn is one draw, and then one write of `v[x]` (R112). -/
theorem exec_rnd (s : State) (x : RegIdx) (nn : Byte) :
    exec (.rnd x nn) s = .next (s.draw.2.setReg x (Config.rnd s.draws &&& nn)) := rfl

/-- Settles O28: the frame is that of the draw and then of the write. -/
theorem randomIsAFreeByteMasked : Obligations.RandomIsAFreeByteMasked := by
  unfold Obligations.RandomIsAFreeByteMasked
  intro s x nn
  have hframe := s.frame_draw.trans (s.draw.2.frame_setReg x (Config.rnd s.draws &&& nn))
  refine ⟨_, exec_rnd s x nn, fun b => ?bits, ?draws, fun hnn => ?whole, fun p hp => hframe p ?frame⟩
  case bits => rw [State.reg_setReg_self, BitVec.getLsbD_and]
  case draws => rw [State.setReg_draws, State.draw_draws]
  case whole =>
    rw [State.reg_setReg_self, hnn]
    exact BitVec.and_allOnes
  case frame => simpa [and_comm] using hp

end Sys2Proof.Machine
end

section
/-! Index register and memory (spec 43_index_memory.md): what `i` becomes, and the three instructions that copy a block at
`i`, each of which checks the whole block first (R48, R126). -/

namespace Sys2Proof.Machine

/-! ### The index register (R120 to R122) -/

/-- An instruction that is a write of `i` completes, leaves the word there, and changes nothing else. -/
theorem exec_setI {i : Instr} {s : State} {a : Word} {n : Nat} (h : exec i s = .next (s.setI a)) (ha : a.toNat = n) :
    ∃ t, exec i s = .next t ∧ t.i.toNat = n ∧ Frame s t [.i] :=
  ⟨_, h, ha, s.frame_setI a⟩

theorem toNat_add_zextByte (a : Word) (b : Byte) : (a + zextByte b).toNat = (a.toNat + b.toNat) % 65536 := by
  rw [BitVec.toNat_add, zextByte_toNat]

/-- Five times a byte is at most 1275, so the 16-bit product never wraps (R122). -/
theorem toNat_zextByte_mul_five (b : Byte) : (zextByte b * 5#16).toNat = b.toNat * 5 := by
  have hb := b.isLt
  rw [BitVec.toNat_mul, zextByte_toNat]
  exact Nat.mod_eq_of_lt (by simp only [BitVec.toNat_ofNat]; omega)

/-- Settles O31: each of the three is one write of `i`. -/
theorem indexInstructionsSetI : Obligations.IndexInstructionsSetI := by
  unfold Obligations.IndexInstructionsSetI
  exact fun s x nnn => ⟨exec_setI rfl (zextImm_toNat nnn), exec_setI rfl (toNat_add_zextByte s.i (s.reg x)),
    exec_setI rfl (toNat_zextByte_mul_five (s.reg x))⟩

/-! ### A block at `i`, in memory or not (R48) -/

/-- An instruction on the `n + 1` bytes at `i` has its effect where the last of them is in memory. -/
theorem exec_block_fits {i : Instr} {s : State} {n : Nat} {go : Unit → State}
    (h : exec i s = attempt s (s.checkAccess (n + 1)) go) (hfits : s.i.toNat + n < 4096) :
    exec i s = .next (go ()) := by
  rw [h, s.checkAccess_ok (n + 1) (.inr hfits), attempt_ok]

/-- An instruction on the `n + 1` bytes at `i` latches code 5 and does nothing else where the last of them is not in
memory (R170, R171). -/
theorem exec_block_out {i : Instr} {s : State} {n : Nat} {go : Unit → State}
    (h : exec i s = attempt s (s.checkAccess (n + 1)) go) (hout : 4096 ≤ s.i.toNat + n) :
    ∃ t, exec i s = .next t ∧ t = { s with fault := some .outOfBoundsMemory } ∧ t.faultCode = 5#3 := by
  rw [h, s.checkAccess_error (n + 1) (Nat.le_add_left 1 n) hout, attempt_error]
  exact ⟨_, rfl, rfl, rfl⟩

/-- An instruction that leaves the latch alone changes only what its rule names. -/
theorem exec_frame_written {i : Instr} {s t : State} (hwf : s.mem.wf) (h : exec i s = .next t)
    (hfault : t.fault = s.fault) : Frame s t (written s i) :=
  Frame.of_fault_same (instructionsWriteOnlyWhatTheirRuleNames i s t hwf h) hfault

/-! ### Fx33 (R123) -/

/-- The digits as numbers: hundreds, tens, ones (R123). -/
theorem bcdDigits_map_toNat (b : Byte) :
    (bcdDigits b).map BitVec.toNat = [b.toNat / 100, b.toNat / 10 % 10, b.toNat % 10] := by
  simp only [bcdDigits, List.map_cons, List.map_nil, BitVec.toNat_udiv, BitVec.toNat_umod, BitVec.reduceToNat]

/-- Each of the three digits is read back at its own place. -/
theorem Memory.toNat_read_writeBytes_bcdDigits {m : Memory} (hm : m.wf) {a : Nat} (ha : a + 2 < 4096) (b : Byte)
    (k : Nat) (hk : k < 3) :
    ((m.writeBytes a (bcdDigits b)).read (a + k)).toNat =
      [b.toNat / 100, b.toNat / 10 % 10, b.toNat % 10].getD k 0 := by
  have hfits : a + (bcdDigits b).length ≤ 4096 := ha
  have hblock : a ≤ a + k ∧ a + k < a + (bcdDigits b).length := ⟨Nat.le_add_right a k, Nat.add_lt_add_left hk a⟩
  rw [Memory.read_writeBytes hm hfits, if_pos hblock, Nat.add_sub_cancel_left, ← bcdDigits_map_toNat]
  exact (List.getD_map _ 0#8 BitVec.toNat).symm

/-- Settles O32: three bytes in memory, or a fault. -/
theorem bcdStoresThreeDigits : Obligations.BcdStoresThreeDigits := by
  unfold Obligations.BcdStoresThreeDigits
  refine fun s x hwf => ⟨fun hfits => ?_, exec_block_out (n := 2) rfl⟩
  have hexec := exec_block_fits (i := .ldB x) (n := 2) rfl hfits
  have hread := Memory.toNat_read_writeBytes_bcdDigits hwf hfits (s.reg x)
  exact ⟨_, hexec, hread 0 (by decide), hread 1 (by decide), hread 2 (by decide), exec_frame_written hwf hexec rfl⟩

/-! ### Fx55 (R124) -/

/-- Settles O33: what the copy leaves in memory is `Memory.read_writeBytes_regsUpTo`. -/
theorem storeCopiesRegistersToMemory : Obligations.StoreCopiesRegistersToMemory := by
  unfold Obligations.StoreCopiesRegistersToMemory
  refine fun s x hwf => ⟨fun hfits => ?_, exec_block_out rfl⟩
  have hexec := exec_ldMemVx_fits hfits
  exact ⟨_, hexec, fun r hr => Memory.read_writeBytes_regsUpTo hwf hfits hr, exec_frame_written hwf hexec rfl⟩

/-! ### Fx65 (R125) -/

/-- A register up to the last one loaded holds the byte at its own place in the block. -/
theorem loadRegs_readBytes_getElem (v : Vector Byte 16) (m : Memory) (a : Nat) {n r : Nat} (hr : r < 16) (hn : r < n) :
    (loadRegs v 0 (m.readBytes a n))[r] = m.read (a + r) := by
  have hloaded : 0 ≤ r ∧ r < 0 + (m.readBytes a n).length := by
    rw [Memory.readBytes_length]
    omega
  rw [loadRegs_getElem v 0 _ r hr, if_pos hloaded, Nat.sub_zero, Memory.readBytes_getD m a hn]

/-- Settles O34: no premise on memory, since the frame is that of the registers (`State.frame_loadRegs`). -/
theorem loadCopiesMemoryToRegisters : Obligations.LoadCopiesMemoryToRegisters := by
  unfold Obligations.LoadCopiesMemoryToRegisters
  refine fun s x => ⟨fun hfits => ?_, exec_block_out rfl⟩
  have hexec := exec_block_fits (i := .ldVxMem x) rfl hfits
  refine ⟨_, hexec, fun r hr => ?_, s.frame_loadRegs x (Memory.readBytes_length _ _ _)⟩
  exact loadRegs_readBytes_getElem s.v s.mem (s.effAddr 0) r.isLt (Nat.lt_succ_of_le hr)

end Sys2Proof.Machine
end

section
/-! The display instructions (spec 44_display.md). The loop of R137 equals a formula because no two pixels of a draw
share a cell (R139): what one pixel does composes over the columns and the rows of the sprite. -/

namespace Sys2Proof.Machine

/-! ### 00E0 (R135) -/

/-- Settles O37: the display is replaced by the blank one. -/
theorem clearBlanksTheDisplay : Obligations.ClearBlanksTheDisplay := by
  unfold Obligations.ClearBlanksTheDisplay
  exact fun s => ⟨_, rfl, fun k _ => Display.cell_blank k, s.frame_setDisplay _⟩

/-! ### Displays that differ in a set of cells -/

/-- From `d` to `e` exactly the cells in `P` changed. -/
def Display.Toggled (d e : Display) (P : Nat → Prop) : Prop := ∀ k, k < 2048 → (e.cell k ≠ d.cell k ↔ P k)

/-- Changing the same cells twice changes nothing. -/
theorem Display.Toggled.cancel {d e f : Display} {P : Nat → Prop} (hde : d.Toggled e P) (hef : e.Toggled f P) :
    f = d := by
  refine Display.ext_cell f d fun k hk => ?_
  have hsame : f.cell k ≠ e.cell k ↔ e.cell k ≠ d.cell k := (hef k hk).trans (hde k hk).symm
  revert hsame
  cases d.cell k <;> cases e.cell k <;> cases f.cell k <;> decide

/-- A changed cell that was lit is one that was lit before and is unlit after. -/
theorem Display.Toggled.lit_iff {d e : Display} {P : Nat → Prop} (h : d.Toggled e P) {k : Nat} (hk : k < 2048) :
    P k ∧ d.cell k = true ↔ d.cell k = true ∧ e.cell k = false := by
  rw [← h k hk]
  cases d.cell k <;> cases e.cell k <;> decide

/-- What drawing pixels on the cells in `P` does to the display and the collision bit of the loop of R137: exactly these
cells change, and a collision is noted where one of them was lit before. -/
structure Plotted (acc acc' : Display × Bool) (P : Nat → Prop) : Prop where
  toggled : acc.1.Toggled acc'.1 P
  collision : acc'.2 = true ↔ acc.2 = true ∨ ∃ k < 2048, P k ∧ acc.1.cell k = true

theorem Plotted.refl {P : Nat → Prop} (acc : Display × Bool) (hP : ∀ k, ¬ P k) : Plotted acc acc P where
  toggled := by simp [Display.Toggled, hP]
  collision := by simp [hP]

/-- Draws on disjoint cells compose: the second finds each of its cells as the first found it. -/
theorem Plotted.trans {a b c : Display × Bool} {P Q R : Nat → Prop} (hab : Plotted a b P) (hbc : Plotted b c Q)
    (hdisj : ∀ k, P k → ¬ Q k) (hR : ∀ k, R k ↔ P k ∨ Q k) : Plotted a c R := by
  have hfirst : ∀ k < 2048, ¬ P k → b.1.cell k = a.1.cell k := fun k hk hP => by
    simpa [hP] using hab.toggled k hk
  have hsecond : ∀ k < 2048, ¬ Q k → c.1.cell k = b.1.cell k := fun k hk hQ => by
    simpa [hQ] using hbc.toggled k hk
  constructor
  · intro k hk
    rw [hR]
    by_cases hP : P k
    · rw [hsecond k hk (hdisj k hP), hab.toggled k hk]
      simp [hP]
    · rw [← hfirst k hk hP, hbc.toggled k hk]
      simp [hP]
  · have hlit : ∀ k < 2048, Q k → b.1.cell k = a.1.cell k := fun k hk hQ => hfirst k hk fun hP => hdisj k hP hQ
    have hlater : (∃ k < 2048, Q k ∧ b.1.cell k = true) ↔ ∃ k < 2048, Q k ∧ a.1.cell k = true :=
      exists_congr fun k => and_congr_right fun hk => and_congr_right fun hQ => by rw [hlit k hk hQ]
    rw [hbc.collision, hab.collision, hlater, or_assoc]
    simp only [hR, or_and_right, and_or_left, exists_or]

/-- One pixel (R137). -/
theorem plot_plotted {k : Nat} (hk : k < 2048) (bit : Bool) (acc : Display × Bool) :
    Plotted acc (plot k bit acc) (fun j => j = k ∧ bit = true) where
  toggled j hj := by
    rw [plot, Display.cell_xorCell _ hk hj]
    by_cases hjk : j = k <;> cases bit <;> simp [hjk]
  collision := by
    cases bit <;> simp [plot, hk]

/-! ### The loops of R137 as formulas -/

/-- The cells that the first `n` columns of sprite row `r`, whose byte is `b`, are drawn on (R136, R137). -/
def RowLights (x0 y0 : Byte) (r : Nat) (b : Byte) (n k : Nat) : Prop :=
  ∃ c < n, k = spriteCell x0 y0 r c ∧ spriteBit b c = true

theorem rowLights_succ (x0 y0 : Byte) (r : Nat) (b : Byte) (n k : Nat) :
    RowLights x0 y0 r b (n + 1) k ↔ RowLights x0 y0 r b n k ∨ k = spriteCell x0 y0 r n ∧ spriteBit b n = true :=
  Nat.exists_lt_succ_right

/-- The formula of R137, row by row. -/
theorem spriteLights_iff (m : Memory) (base : Nat) (x0 y0 : Byte) (n k : Nat) :
    SpriteLights m base x0 y0 n k ↔ ∃ r < n, RowLights x0 y0 r (m.read (base + r)) 8 k := by
  simp only [SpriteLights, RowLights, spriteCell, spriteBit, exists_and_left]

theorem spriteLights_succ (m : Memory) (base : Nat) (x0 y0 : Byte) (n k : Nat) :
    SpriteLights m base x0 y0 (n + 1) k ↔
      SpriteLights m base x0 y0 n k ∨ RowLights x0 y0 n (m.read (base + n)) 8 k := by
  simp only [spriteLights_iff, Nat.exists_lt_succ_right]

/-- No two pixels of a draw share a cell: a sprite is narrower and lower than the screen (R139). -/
theorem spriteCell_inj {x0 y0 : Byte} {r r' c c' : Nat} (hr : r < 32) (hr' : r' < 32) (hc : c < 64) (hc' : c' < 64)
    (h : spriteCell x0 y0 r c = spriteCell x0 y0 r' c') : r = r' ∧ c = c' := by
  unfold spriteCell at h
  omega

theorem drawColumns_plotted (x0 y0 : Byte) {r : Nat} (hr : r < 32) (b : Byte) {n : Nat} (hn : n ≤ 8)
    (acc : Display × Bool) : Plotted acc (drawColumns x0 y0 r b n acc) (RowLights x0 y0 r b n) := by
  induction n with
  | zero => exact Plotted.refl acc fun k ⟨c, hc, _⟩ => Nat.not_lt_zero c hc
  | succ n ih =>
    refine (ih (by omega)).trans (plot_plotted (spriteCell_lt x0 y0 r n) (spriteBit b n) _) ?_
      (rowLights_succ x0 y0 r b n)
    rintro k ⟨c, hc, rfl, -⟩ ⟨hcell, -⟩
    have := (spriteCell_inj hr hr (by omega) (by omega) hcell).2
    omega

theorem drawRows_plotted (m : Memory) (base : Nat) (x0 y0 : Byte) {n : Nat} (hn : n ≤ 32) (acc : Display × Bool) :
    Plotted acc (drawRows m base x0 y0 n acc) (SpriteLights m base x0 y0 n) := by
  induction n with
  | zero => exact Plotted.refl acc fun k ⟨r, _, hr, _⟩ => Nat.not_lt_zero r hr
  | succ n ih =>
    refine (ih (by omega)).trans (drawColumns_plotted x0 y0 (by omega) (m.read (base + n)) le_rfl _) ?_
      (spriteLights_succ m base x0 y0 n)
    rintro k ⟨r, c, hr, hc, rfl, -⟩ ⟨c', hc', hcell, -⟩
    have := (spriteCell_inj (by omega) (by omega) (by omega) (by omega) hcell).1
    omega

/-! ### Dxyn (R137) -/

/-- The display and the collision bit that Dxyn draws. -/
def State.drawn (s : State) (x y : RegIdx) (n : Nibble) : Display × Bool :=
  drawRows s.mem (s.effAddr 0) (s.reg x) (s.reg y) n.toNat (s.display, false)

/-- The state that Dxyn leaves where it does not fault. -/
def State.afterDraw (s : State) (x y : RegIdx) (n : Nibble) : State :=
  (s.setDisplay (s.drawn x y n).1).setFlag (s.drawn x y n).2

@[simp] theorem State.afterDraw_display (s : State) (x y : RegIdx) (n : Nibble) :
    (s.afterDraw x y n).display = (s.drawn x y n).1 := rfl

@[simp] theorem State.afterDraw_mem (s : State) (x y : RegIdx) (n : Nibble) : (s.afterDraw x y n).mem = s.mem := rfl

@[simp] theorem State.afterDraw_i (s : State) (x y : RegIdx) (n : Nibble) : (s.afterDraw x y n).i = s.i := rfl

theorem State.afterDraw_flag (s : State) (x y : RegIdx) (n : Nibble) :
    (s.afterDraw x y n).reg 15#4 = flagByte (s.drawn x y n).2 := State.reg_setReg_self _ _ _

theorem State.afterDraw_reg (s : State) (x y : RegIdx) (n : Nibble) {r : RegIdx} (hr : r ≠ 15#4) :
    (s.afterDraw x y n).reg r = s.reg r := by
  simp [State.afterDraw, State.setFlag, hr.symm]

theorem State.frame_afterDraw (s : State) (x y : RegIdx) (n : Nibble) :
    Frame s (s.afterDraw x y n) ((List.range 2048).map .cell ++ [.reg 15#4]) :=
  (s.frame_setDisplay _).trans (State.frame_setFlag _ _)

/-- Dxyn with the sprite in memory, or with no row at all. -/
theorem exec_drw_fits {s : State} {n : Nibble} (x y : RegIdx) (h : n.toNat = 0 ∨ s.i.toNat + n.toNat - 1 < 4096) :
    exec (.drw x y n) s = .next (s.afterDraw x y n) := by
  have hcheck : s.checkAccess n.toNat = .ok () := s.checkAccess_ok n.toNat (by omega)
  simp only [exec, execDrw, hcheck, attempt_ok, State.afterDraw, State.drawn]

/-- Dxyn with its last row past the end of memory (R171). -/
theorem exec_drw_out {s : State} {n : Nibble} (x y : RegIdx) (hn : 1 ≤ n.toNat)
    (h : 4096 ≤ s.i.toNat + n.toNat - 1) : exec (.drw x y n) s = .next (s.latch .outOfBoundsMemory) := by
  simp only [exec, execDrw, s.checkAccess_error n.toNat hn h, attempt_error]

/-- The loop equals the formula (R139). -/
theorem State.drawn_plotted (s : State) (x y : RegIdx) (n : Nibble) :
    Plotted (s.display, false) (s.drawn x y n)
      (SpriteLights s.mem (s.effAddr 0) (s.reg x) (s.reg y) n.toNat) :=
  drawRows_plotted _ _ _ _ (by omega) _

/-- The collision bit: some cell was lit before and is unlit after (R137). -/
theorem State.drawn_collision (s : State) (x y : RegIdx) (n : Nibble) :
    (s.drawn x y n).2 = true ↔ ∃ k, k < 2048 ∧ s.display.cell k = true ∧ (s.drawn x y n).1.cell k = false := by
  have h := s.drawn_plotted x y n
  rw [h.collision]
  simp only [Bool.false_eq_true, false_or]
  exact exists_congr fun k => and_congr_right fun hk => h.toggled.lit_iff hk

/-- Settles O38: the loop's cells are `State.drawn_plotted`, its collision bit `State.drawn_collision`. -/
theorem drawXorsTheSpriteAndReportsCollision : Obligations.DrawXorsTheSpriteAndReportsCollision := by
  unfold Obligations.DrawXorsTheSpriteAndReportsCollision
  refine fun s x y n => ⟨fun hfits => ?_, fun hn hout => ⟨_, exec_drw_out x y hn hout, rfl, rfl⟩⟩
  refine ⟨_, exec_drw_fits x y hfits, (s.drawn_plotted x y n).toggled, fun hhit => ?_, fun hmiss => ?_,
    s.frame_afterDraw x y n⟩
  · rw [State.afterDraw_flag, (s.drawn_collision x y n).mpr hhit]
    rfl
  · rw [State.afterDraw_flag, Bool.eq_false_iff.mpr (mt (s.drawn_collision x y n).mp hmiss)]
    rfl

/-- Settles O39: the first draw leaves what the second one reads, so both change the same cells. -/
theorem drawingTwiceRestoresTheDisplay : Obligations.DrawingTwiceRestoresTheDisplay := by
  unfold Obligations.DrawingTwiceRestoresTheDisplay
  intro s t u x y n hx hy hfits hst htu
  obtain rfl : s.afterDraw x y n = t := Host.Outcome.next.inj ((exec_drw_fits x y hfits).symm.trans hst)
  obtain rfl : (s.afterDraw x y n).afterDraw x y n = u :=
    Host.Outcome.next.inj ((exec_drw_fits (s := s.afterDraw x y n) x y hfits).symm.trans htu)
  have hsecond := ((s.afterDraw x y n).drawn_plotted x y n).toggled
  simp only [State.effAddr_zero, State.afterDraw_display, State.afterDraw_mem, State.afterDraw_i,
    State.afterDraw_reg s x y n hx, State.afterDraw_reg s x y n hy] at hsecond
  exact (s.drawn_plotted x y n).toggled.cancel hsecond

end Sys2Proof.Machine
end

section
/-! Keypad and timers (spec 45_keypad_timers.md): the two skips on a key, the wait for a key by way of the key scan
(R152), and the moves between `v[x]` and the timers. -/

namespace Sys2Proof.Machine

/-! ### The key code in `v[x]` (R150, R172) -/

theorem State.keyOperand_eq_ok {s : State} {x k : RegIdx} (h : (s.reg x).toNat = k.toNat) : s.keyOperand x = .ok k := by
  have hk : (s.reg x).setWidth 4 = k := by
    apply BitVec.eq_of_toNat_eq
    rw [BitVec.toNat_setWidth, h, Nat.mod_eq_of_lt k.isLt]
  rw [s.keyOperand_ok x (by omega), hk]

/-- An instruction on the key in `v[x]` has its effect where `v[x]` is the code of a key. -/
theorem exec_key_code {i : Instr} {s : State} {x k : RegIdx} {go : RegIdx → State}
    (h : exec i s = attempt s (s.keyOperand x) go) (hk : (s.reg x).toNat = k.toNat) : exec i s = .next (go k) := by
  rw [h, State.keyOperand_eq_ok hk, attempt_ok]

/-- An instruction on the key in `v[x]` latches code 6 and does nothing else where `v[x]` is the code of no key (R170,
R172). -/
theorem exec_key_out {i : Instr} {s : State} {x : RegIdx} {go : RegIdx → State}
    (h : exec i s = attempt s (s.keyOperand x) go) (hout : 15 < (s.reg x).toNat) :
    exec i s = .next { s with fault := some .keyIndexOutOfRange } := by
  rw [h, s.keyOperand_error x hout, attempt_error, State.latch]

/-- Ex9E on the code of a key (R150). -/
theorem exec_skp_key {s : State} {x k : RegIdx} (hk : (s.reg x).toNat = k.toNat) :
    exec (.skp x) s = .next (s.skipIf (decide (s.key k = true))) := by
  rw [exec_key_code (i := .skp x) rfl hk, Bool.decide_eq_true]

/-- ExA1 on the code of a key (R151). -/
theorem exec_sknp_key {s : State} {x k : RegIdx} (hk : (s.reg x).toNat = k.toNat) :
    exec (.sknp x) s = .next (s.skipIf (decide (s.key k = false))) := by
  rw [exec_key_code (i := .sknp x) rfl hk, Bool.decide_eq_false]

/-- Settles O41: both skips read the key in `v[x]` first; with a key there they are skips on a condition. -/
theorem keySkipsLookAtTheKey : Obligations.KeySkipsLookAtTheKey := by
  unfold Obligations.KeySkipsLookAtTheKey
  refine fun s x k => ⟨fun hk => ⟨?skp, ?sknp⟩, fun hout => ⟨exec_key_out rfl hout, exec_key_out rfl hout⟩, rfl⟩
  case skp => exact exec_skipIf (exec_skp_key hk)
  case sknp => exact exec_skipIf (exec_sknp_key hk)

/-! ### The lowest pressed key (R152) -/

theorem State.keys_getElem (s : State) {m : Nat} (hm : m < 16) : s.keys[m] = s.key (BitVec.ofNat 4 m) := by
  simp only [State.key, BitVec.toNat_ofNat, Nat.reducePow, Nat.mod_eq_of_lt hm]

theorem State.keys_toList_getD (s : State) {m : Nat} (hm : m < 16) :
    s.keys.toList.getD m false = s.key (BitVec.ofNat 4 m) := by
  rw [List.getD_eq_getElem _ _ (by rwa [Vector.length_toList]), Vector.getElem_toList, s.keys_getElem hm]

/-- The scan from key 0 ends at the lowest pressed key. -/
theorem State.firstKey_eq_some {s : State} {k : RegIdx} (hpressed : s.key k = true)
    (hlowest : ∀ j : RegIdx, j.toNat < k.toNat → s.key j = false) : s.firstKey = some k.toNat := by
  have hk : k.toNat < 16 := k.isLt
  refine (scanKeys_eq_some 0 k.toNat s.keys.toList).mpr ⟨Nat.zero_le _, ?_, fun m hm => ?_⟩
  · rw [Nat.sub_zero, s.keys_toList_getD hk, BitVec.ofNat_toNat, BitVec.setWidth_eq, hpressed]
  · rw [s.keys_toList_getD (by omega)]
    refine hlowest _ ?_
    rw [BitVec.toNat_ofNat]
    omega

/-- The scan finds nothing when no key is pressed. -/
theorem State.firstKey_eq_none {s : State} (h : ∀ k : RegIdx, s.key k = false) : s.firstKey = none := by
  refine (scanKeys_eq_none 0 s.keys.toList).mpr fun p hp => ?_
  obtain ⟨m, hm, rfl⟩ := Vector.mem_iff_getElem.mp (Vector.mem_toList_iff.mp hp)
  rw [s.keys_getElem hm, h]

/-- Settles O42: the two ways Fx0A goes are the two answers of the scan. -/
theorem waitKeyTakesTheLowestKeyOrRewinds : Obligations.WaitKeyTakesTheLowestKeyOrRewinds := by
  unfold Obligations.WaitKeyTakesTheLowestKeyOrRewinds
  refine fun s x => ⟨fun k hpressed hlowest => ?pressed, fun hnone => ?waits⟩
  case pressed =>
    obtain ⟨t, hexec, hreg, hframe⟩ := exec_setReg (exec_ldVxK_pressed x (State.firstKey_eq_some hpressed hlowest))
    refine ⟨t, hexec, ?_, hframe⟩
    rw [hreg, BitVec.toNat_ofNat]
    omega
  case waits => exact ⟨_, exec_ldVxK_waits x (State.firstKey_eq_none hnone), rfl, s.frame_setPc _⟩

/-- Settles O43: Fx0A takes back the 2 that the fetch added to `pc`. -/
theorem waitingTickChangesNothing : Obligations.WaitingTickChangesNothing := by
  unfold Obligations.WaitingTickChangesNothing
  intro s x hrun hpc hdecode hnone
  have hfirst : (s.setPc (s.pc + 2#16)).firstKey = none := State.firstKey_eq_none hnone
  rw [tick_exec hrun hpc hdecode, exec_ldVxK_waits x hfirst]
  simp only [State.setPc, BitVec.add_sub_cancel]

/-! ### The timers (R153 to R155) -/

/-- Settles O44: each of the three is one write. -/
theorem timerInstructionsMoveTheTimers : Obligations.TimerInstructionsMoveTheTimers := by
  unfold Obligations.TimerInstructionsMoveTheTimers
  exact fun s x => ⟨exec_setReg rfl, ⟨_, rfl, rfl, s.frame_setDt _⟩, ⟨_, rfl, rfl, s.frame_setSt _⟩⟩

end Sys2Proof.Machine
end

section
/-! Exceptions and host operations (spec 60_exceptions.md): the fault of each instruction and of a tick (R165 to R174),
the halted machine (R186), and what the host does to timers, keys and display (R177, R182, R183). -/

namespace Sys2Proof.Machine

/-! ### The fault of each instruction (R165, R174) -/

/-- An attempt whose check fails under one condition alone leaves the latch as that condition says. -/
theorem attempt_fault_eq_ite {α : Type} {s t : State} {check : Except Fault α} {go : α → State} {f : Fault}
    {c : Prop} [Decidable c] (hrun : s.Running) (h : attempt s check go = .next t) (hgo : ∀ a, (go a).fault = s.fault)
    (hfails : c → check = .error f) (hpasses : ¬ c → ∃ a, check = .ok a) :
    t.fault = if c then some f else none := by
  by_cases hc : c
  · rw [hfails hc, attempt_error] at h
    cases h
    exact (if_pos hc).symm
  · obtain ⟨a, ha⟩ := hpasses hc
    rw [ha, attempt_ok] at h
    cases h
    rw [hgo, hrun, if_neg hc]

/-- The access to the `n + 1` bytes at `i` faults when the last of them lies past the end (R48, R171). -/
theorem attempt_access_fault {s t : State} {n : Nat} {go : Unit → State} (hrun : s.Running)
    (h : attempt s (s.checkAccess (n + 1)) go = .next t) (hgo : ∀ a, (go a).fault = s.fault) :
    t.fault = if 4096 ≤ s.i.toNat + n then some .outOfBoundsMemory else none :=
  attempt_fault_eq_ite hrun h hgo (fun hout => s.checkAccess_error _ (by omega) hout)
    fun hin => ⟨(), s.checkAccess_ok _ (by omega)⟩

/-- The instructions on the key in `v[x]` fault when it is the code of no key (R172). -/
theorem attempt_key_fault {s t : State} {x : RegIdx} {go : RegIdx → State} (hrun : s.Running)
    (h : attempt s (s.keyOperand x) go = .next t) (hgo : ∀ k, (go k).fault = s.fault) :
    t.fault = if 15 < (s.reg x).toNat then some .keyIndexOutOfRange else none :=
  attempt_fault_eq_ite hrun h hgo (s.keyOperand_error x) fun hkey => ⟨_, s.keyOperand_ok x (by omega)⟩

/-- Settles O13: the five kinds of instruction that check something fault by their check, and no other has one. -/
theorem instructionsFaultExactlyAsTheTableSays : Obligations.InstructionsFaultExactlyAsTheTableSays := by
  unfold Obligations.InstructionsFaultExactlyAsTheTableSays
  intro i s t hrun h
  cases i with
  | call nnn =>
    obtain ⟨hroom, rfl⟩ | ⟨hfull, rfl⟩ := exec_call_cases h
    · exact hrun.trans (if_neg hroom.ne).symm
    · exact (if_pos hfull).symm
  | ret =>
    obtain ⟨n, hn, hheld, rfl⟩ | ⟨hempty, rfl⟩ := exec_ret_cases h
    · exact hrun.trans (if_neg (by omega)).symm
    · exact (if_pos hempty).symm
  | drw x y n =>
    exact attempt_fault_eq_ite hrun h (fun _ => rfl) (fun ⟨hn, hout⟩ => s.checkAccess_error _ hn hout)
      fun hin => ⟨(), s.checkAccess_ok _ (by omega)⟩
  | ldB | ldMemVx | ldVxMem => exact attempt_access_fault hrun h fun _ => rfl
  | skp | sknp => exact attempt_key_fault hrun h fun _ => State.skipIf_fault _ _
  | seImm | sneImm | seReg | sneReg =>
    cases h
    exact (State.skipIf_fault _ _).trans hrun
  | ldVxK x =>
    cases h
    split <;> exact hrun
  | _ =>
    cases h
    exact hrun

/-! ### The faults of a tick (R166, R169) -/

/-- Settles O9: the fetch fails before `pc` is advanced. -/
theorem fetchPastTheEndFaults : Obligations.FetchPastTheEndFaults := by
  unfold Obligations.FetchPastTheEndFaults
  exact fun s hrun hpc => ⟨_, tick_fetch_fault hrun hpc, rfl, rfl⟩

/-- Settles O10: the decode fails on the state that the fetch has advanced. -/
theorem unknownOpcodeFaults : Obligations.UnknownOpcodeFaults := by
  unfold Obligations.UnknownOpcodeFaults
  exact fun s hrun hpc hdecode => ⟨_, tick_unknown_opcode hrun hpc hdecode, rfl, rfl⟩

/-! ### The halted machine (R81, R186) -/

theorem Fault.code_ne_zero (f : Fault) : f.code ≠ 0#3 := by
  cases f <;> decide

theorem State.faultCode_of_fault {s : State} {f : Fault} (h : s.fault = some f) : s.faultCode = f.code := by
  simp only [State.faultCode, h]

theorem State.opResult_of_fault {s : State} {f : Fault} (h : s.fault = some f) : s.opResult = .error f := by
  simp only [State.opResult, h]

/-- Each host operation looks at the latch first, and `reset` alone goes on from a latched fault. -/
theorem perform_halted {s : State} {op : HostOp} (hhalted : ¬ s.Running) (hop : op ≠ .reset) :
    perform op s = .next s := by
  cases op with
  | tick =>
    obtain ⟨f, hf⟩ := Option.ne_none_iff_exists'.mp hhalted
    exact tick_halted hf
  | tickTimers => exact congrArg _ (State.tickTimers_halted hhalted)
  | keyPressed k p => exact congrArg _ (State.keyPressed_halted hhalted k p)
  | load bytes => exact loadProgram_halted hhalted bytes
  | reset => exact absurd rfl hop
  | getDisplay => rfl

/-- Settles O11: the result and the code are read from the latch, which only `reset` clears. -/
theorem haltedMachineIsFrozen : Obligations.HaltedMachineIsFrozen := by
  unfold Obligations.HaltedMachineIsFrozen
  intro s f hf
  have hhalted : ¬ s.Running := by simp [hf]
  have hcode : s.faultCode = f.code := State.faultCode_of_fault hf
  exact ⟨fun op => perform_halted hhalted, State.opResult_of_fault hf, hcode, hcode ▸ f.code_ne_zero, _, rfl,
    s.performReset_fault⟩

/-! ### Timers, keys and display (R177, R182, R183) -/

theorem State.frame_setKey (s : State) (k : RegIdx) (p : Bool) : Frame s (s.setKey k p) [.key k] := by
  intro part hpart
  cases part with
  | key j =>
    have hne : k ≠ j := by rintro rfl; simp at hpart
    simp [Part.same, hne]
  | _ => exact rfl

/-- Settles O46: one countdown of each timer, or a halted machine. -/
theorem tickTimersCountsDown : Obligations.TickTimersCountsDown := by
  unfold Obligations.TickTimersCountsDown
  refine fun s => ⟨fun hrun => ?_, fun hhalted => perform_halted hhalted (by simp)⟩
  exact ⟨_, congrArg Host.Outcome.next (State.tickTimers_running hrun), countDown_toNat s.dt, countDown_toNat s.st,
    (s.frame_setDt _).trans (State.frame_setSt _ _)⟩

/-- Settles O47: one key level set, or a halted machine. -/
theorem keyPressedSetsOneLevel : Obligations.KeyPressedSetsOneLevel := by
  unfold Obligations.KeyPressedSetsOneLevel
  refine fun s k p => ⟨fun hrun => ?_, fun hhalted => perform_halted hhalted (by simp)⟩
  exact ⟨_, congrArg Host.Outcome.next (State.keyPressed_running hrun k p), by simp, s.frame_setKey k p⟩

/-- Settles O50: `get_display` performs nothing, and a pixel is its cell by definition (R24). -/
theorem readingTheDisplayChangesNothing : Obligations.ReadingTheDisplayChangesNothing := by
  unfold Obligations.ReadingTheDisplayChangesNothing
  exact fun s x y _ _ => ⟨rfl, rfl⟩

end Sys2Proof.Machine
end

section
/-! Reset, load and the host's queue (spec 70_reset_and_hazards.md): where a tick can leave a running machine as it was
(R201), what `load` copies (R199), what `reset` restores (R197), and that no operation reaches the queue (R196). -/

namespace Sys2Proof.Machine

/-! ### The fixed points of a tick (R201) -/

/-- When an instruction takes `pc` back by the 2 of its own fetch and changes nothing else: three instructions can. -/
def State.FixedBy (s : State) : Instr → Prop
  | .jp nnn => nnn.toNat = s.pc.toNat
  | .jpV0 nnn => (s.reg 0#4).toNat + nnn.toNat = s.pc.toNat
  | .ldVxK _ => ∀ k, s.key k = false
  | _ => False

theorem State.exists_fixedBy_iff {s : State} {o : Option Instr} :
    (∃ i, o = some i ∧ s.FixedBy i) ↔
      (∃ nnn, o = some (.jp nnn) ∧ nnn.toNat = s.pc.toNat) ∨
      (∃ nnn, o = some (.jpV0 nnn) ∧ (s.reg 0#4).toNat + nnn.toNat = s.pc.toNat) ∨
      (∃ x, o = some (.ldVxK x) ∧ ∀ k, s.key k = false) := by
  constructor
  · rintro ⟨i, ho, hi⟩
    cases i with
    | jp nnn => exact .inl ⟨nnn, ho, hi⟩
    | jpV0 nnn => exact .inr (.inl ⟨nnn, ho, hi⟩)
    | ldVxK x => exact .inr (.inr ⟨x, ho, hi⟩)
    | _ => exact hi.elim
  · rintro (⟨nnn, ho, hi⟩ | ⟨nnn, ho, hi⟩ | ⟨x, ho, hi⟩) <;> exact ⟨_, ho, hi⟩

theorem State.setPc_eq_self_iff {s : State} {a : Word} : s.setPc a = s ↔ a.toNat = s.pc.toNat := by
  constructor
  · intro h
    exact congrArg (fun t : State => t.pc.toNat) h
  · intro h
    rw [BitVec.eq_of_toNat_eq h]
    rfl

theorem State.latch_ne_of_running {s t : State} (hrun : s.Running) (f : Fault) : s ≠ t.latch f := by
  intro h
  rw [h] at hrun
  cases hrun

/-- No skip makes up for the fetch: it leaves `pc` 2 or 4 further on. -/
theorem State.skipIf_fetched_ne (s : State) (c : Bool) : s ≠ (s.setPc (s.pc + 2#16)).skipIf c := by
  intro h
  have hpc : s.pc = ((s.setPc (s.pc + 2#16)).skipIf c).pc := congrArg State.pc h
  rw [State.skipIf_pc, State.setPc_pc] at hpc
  split at hpc <;> bv_omega

/-- The scan finds nothing exactly when no key is pressed (R152). -/
theorem State.firstKey_eq_none_iff {s : State} : s.firstKey = none ↔ ∀ k, s.key k = false := by
  refine ⟨fun h k => ?_, State.firstKey_eq_none⟩
  exact (scanKeys_eq_none 0 s.keys.toList).mp h _ (by simp [State.key])

/-- An instruction that leaves `pc` where its fetch put it, or that changes `sp`, or that faults, fixes no state. -/
theorem fixedBy_of_exec_fetched {s : State} {i : Instr} (hrun : s.Running)
    (h : exec i (s.setPc (s.pc + 2#16)) = .next s) : s.FixedBy i := by
  have hpc : s.pc ≠ s.pc + 2#16 := by bv_omega
  have hwritten := mem_written_of_changed h .pc hpc
  cases i with
  | jp nnn =>
    have hjump : s.setPc (zextImm nnn) = s := Host.Outcome.next.inj h
    exact (zextImm_toNat nnn).symm.trans (State.setPc_eq_self_iff.mp hjump)
  | jpV0 nnn =>
    have hjump : s.setPc (zextByte (s.reg 0#4) + zextImm nnn) = s := Host.Outcome.next.inj h
    exact (toNat_zextByte_add_zextImm _ nnn).symm.trans (State.setPc_eq_self_iff.mp hjump)
  | ldVxK x =>
    cases hk : s.firstKey with
    | none => exact State.firstKey_eq_none_iff.mp hk
    | some k =>
      rw [exec_ldVxK_pressed x (s := s.setPc (s.pc + 2#16)) hk] at h
      exact absurd (congrArg State.pc (Host.Outcome.next.inj h)).symm hpc
  | call nnn =>
    obtain ⟨hroom, ht⟩ | ⟨-, ht⟩ := exec_call_cases h
    · have hsp := congrArg (fun t : State => t.sp.val) ht
      simp at hsp
    · exact absurd ht (State.latch_ne_of_running hrun _)
  | ret =>
    obtain ⟨n, hn, hheld, ht⟩ | ⟨-, ht⟩ := exec_ret_cases h
    · have hsp : s.sp.val = n := congrArg (fun t : State => t.sp.val) ht
      have hheld' : s.sp.val = n + 1 := hheld
      omega
    · exact absurd ht (State.latch_ne_of_running hrun _)
  | seImm | sneImm | seReg | sneReg =>
    exact absurd (Host.Outcome.next.inj h).symm (s.skipIf_fetched_ne _)
  | skp | sknp =>
    obtain ⟨f, -, ht⟩ | ⟨k, -, ht⟩ := attempt_cases h
    · exact absurd ht (State.latch_ne_of_running hrun f)
    · exact absurd ht (s.skipIf_fetched_ne _)
  | _ => simp [written] at hwritten

theorem exec_fetched_of_fixedBy {s : State} {i : Instr} (h : s.FixedBy i) :
    exec i (s.setPc (s.pc + 2#16)) = .next s := by
  cases i with
  | jp nnn =>
    exact congrArg Host.Outcome.next (State.setPc_eq_self_iff.mpr ((zextImm_toNat nnn).trans h))
  | jpV0 nnn =>
    exact congrArg Host.Outcome.next (State.setPc_eq_self_iff.mpr ((toNat_zextByte_add_zextImm _ nnn).trans h))
  | ldVxK x =>
    rw [exec_ldVxK_waits x (s := s.setPc (s.pc + 2#16)) (State.firstKey_eq_none h)]
    simp only [State.setPc, BitVec.add_sub_cancel]
  | _ => exact h.elim

/-- A tick fixes a running state exactly when what it fetches decodes to an instruction that does: a fetch or a decode
that fails latches a fault. -/
theorem tick_eq_self_iff {s : State} (hrun : s.Running) :
    tick s = .next s ↔ s.pc.toNat < 4095 ∧
      ∃ i, decodeWord (s.mem.read s.pc.toNat ++ s.mem.read (s.pc.toNat + 1)) = some i ∧ s.FixedBy i := by
  constructor
  · intro h
    obtain ⟨-, htick⟩ | ⟨-, -, htick⟩ | ⟨i, hpc, hdecode, htick⟩ := tick_running hrun <;> rw [htick] at h
    · exact absurd (Host.Outcome.next.inj h).symm (State.latch_ne_of_running hrun _)
    · exact absurd (Host.Outcome.next.inj h).symm (State.latch_ne_of_running hrun _)
    · exact ⟨hpc, i, hdecode, fixedBy_of_exec_fetched hrun h⟩
  · rintro ⟨hpc, i, hdecode, hi⟩
    rw [tick_exec hrun hpc hdecode, exec_fetched_of_fixedBy hi]

/-- Settles O54: the fixed points are the states fixed by the instruction at `pc`, which is one of three. -/
theorem tickFixedPointsAreThree : Obligations.TickFixedPointsAreThree := by
  unfold Obligations.TickFixedPointsAreThree
  intro s hrun
  rw [tick_eq_self_iff hrun, State.exists_fixedBy_iff]

/-! ### Load (R199) -/

/-- A block written to memory changes the bytes at its own addresses alone (R49). -/
theorem State.frame_writeBytes {s : State} (hwf : s.mem.wf) (a : Nat) (bs : List Byte) :
    Frame s (s.setMem (s.mem.writeBytes a bs)) ((List.range bs.length).map fun k => .byte (a + k)) := by
  intro p hp
  cases p with
  | byte a' =>
    refine Memory.read_writeBytes_outside hwf ?_
    by_contra hin
    exact hp (List.mem_map.mpr ⟨a' - a, List.mem_range.mpr (by omega), congrArg Part.byte (by omega)⟩)
  | font => exact Memory.writeBytes_font _ _ _
  | _ => exact rfl

/-- Each byte of a block that lies in memory is read back at its own place (R49). -/
theorem Memory.read_writeBytes_getElem {m : Memory} (hm : m.wf) {a : Nat} {bs : List Byte}
    (hfits : a + bs.length ≤ 4096) {k : Nat} (hk : k < bs.length) : (m.writeBytes a bs).read (a + k) = bs[k] := by
  rw [Memory.read_writeBytes hm hfits, if_pos (by omega), Nat.add_sub_cancel_left, List.getD_eq_getElem _ _ hk]

theorem State.opResult_of_running {s : State} (h : s.Running) : s.opResult = .ok () := by
  simp only [State.opResult, h]

/-- Settles O48: `load` is one block write, one latched fault, or nothing. -/
theorem loadCopiesOrOverflows : Obligations.LoadCopiesOrOverflows := by
  unfold Obligations.LoadCopiesOrOverflows
  refine fun s bytes hwf => ⟨fun hrun hlen => ?copies, fun hrun hlen => ?overflows, fun f hf => ?halted⟩
  case copies =>
    exact ⟨_, loadProgram_fits hrun hlen, fun k hk => Memory.read_writeBytes_getElem hwf (by omega) hk,
      State.opResult_of_running hrun, State.frame_writeBytes hwf 0x200 bytes⟩
  case overflows => exact ⟨_, loadProgram_overflows hrun hlen, rfl, rfl, rfl⟩
  case halted => exact ⟨loadProgram_halted (by simp [hf]) bytes, State.opResult_of_fault hf⟩

/-! ### Reset (R197) -/

/-- Settles O49: but for the model's own fields `reset` leaves the reset state of this build, which is
`resetStateIsAsTheSpecSays`; a halted machine stays as it is under every other operation. -/
theorem resetRestoresTheResetState : Obligations.ResetRestoresTheResetState := by
  unfold Obligations.ResetRestoresTheResetState
  refine ⟨fun s => ⟨s.performReset, rfl, resetStateIsAsTheSpecSays.2 s.mem.font (.resetWith s.mem.font) rfl⟩, ?_⟩
  intro s t op hop hhalted h
  rw [perform_halted hhalted hop] at h
  cases h
  rfl

/-! ### The host's queue (R195, R196; log 3) -/

theorem tick_hostOps {s t : State} (hrun : s.Running) (h : tick s = .next t) : t.hostOps = s.hostOps := by
  obtain ⟨-, htick⟩ | ⟨-, -, htick⟩ | ⟨i, -, -, htick⟩ := tick_running hrun <;> rw [htick] at h
  · cases h
    rfl
  · cases h
    rfl
  · simpa using exec_hostOps h

theorem loadProgram_hostOps {s t : State} {bytes : List Byte} (hrun : s.Running) (h : loadProgram bytes s = .next t) :
    t.hostOps = s.hostOps := by
  by_cases hlen : bytes.length ≤ 3584
  · rw [loadProgram_fits hrun hlen] at h
    cases h
    rfl
  · rw [loadProgram_overflows hrun (by omega)] at h
    cases h
    rfl

/-- A halted machine stays as it is or is reset, and `reset` keeps the queue as the operations of a running one do. -/
theorem perform_hostOps {op : HostOp} {s t : State} (h : perform op s = .next t) : t.hostOps = s.hostOps := by
  by_cases hreset : op = .reset
  · subst hreset
    cases h
    rfl
  by_cases hrun : s.Running
  case neg =>
    rw [perform_halted hrun hreset] at h
    cases h
    rfl
  cases op with
  | tick => exact tick_hostOps hrun h
  | load bytes => exact loadProgram_hostOps hrun h
  | tickTimers =>
    cases h
    rw [State.tickTimers_running hrun]
    rfl
  | keyPressed k p =>
    cases h
    rw [State.keyPressed_running hrun]
    rfl
  | reset => exact absurd rfl hreset
  | getDisplay =>
    cases h
    rfl

/-- Settles O8: what a step performs is `step_of_cons` and `step_nil`. -/
theorem stepPerformsTheNextOperation : Obligations.StepPerformsTheNextOperation := by
  unfold Obligations.StepPerformsTheNextOperation
  refine ⟨fun s op ops => step_of_cons, fun s => step_nil, fun s t op => perform_hostOps, fun s t h => ?_⟩
  cases h
  rfl

end Sys2Proof.Machine
end
